-- ==== Sys2Proof/Word.lean ====
section
/-! DEFINITION. The widths of the core's registers (00_scope R8, 30_encoding R56). -/

namespace Sys2Proof

/-- A 16-bit register. Whether it is read as u16 (`toNat`) or as s16 (`toInt`, two's complement) is
said by the register's rule in 10_state (30_encoding R56). -/
abbrev Word := BitVec 16

/-- An 8-bit unsigned register: a duty value or the tick counter (30_encoding R56, R57). -/
abbrev Byte := BitVec 8

/-- The 7-bit control word: `phase` in bits 6:3, `ss` in bits 2:0 (30_encoding R58, R65). -/
abbrev ControlWord := BitVec 7

end Sys2Proof
end

