-- ==== Sys2Proof/Syntax.lean ====
section
/-! DEFINITION. The operations (one constructor per row of the operation table) and the phases of the
sequencer (30_encoding R58, R59). -/

namespace Sys2Proof

/-- The operations of the core. The first twenty have a control word (30_encoding R58); the last three
have none (R59). -/
inductive Instr where
  /-- DRAWX, 42_physics R101. -/
  | drawx
  /-- DRAWY, 42_physics R102. -/
  | drawy
  /-- AGIT, 42_physics R103. -/
  | agit
  /-- INTEG, 42_physics R104. -/
  | integ
  /-- CLAMP, 42_physics R105. -/
  | clamp
  /-- DAMP, 42_physics R106. -/
  | damp
  /-- SPRING, 42_physics R107. -/
  | spring
  /-- EMIT, 42_physics R108. -/
  | emit
  /-- POLL, 43_power R123. -/
  | poll
  /-- DELAY, 43_power R124. -/
  | delay
  /-- OUTOFF, 43_power R125. -/
  | outoff
  /-- DRVOFF, 43_power R126. -/
  | drvoff
  /-- DB1, 43_power R127. -/
  | db1
  /-- REL1, 43_power R128. -/
  | rel1
  /-- DB2, 43_power R129. -/
  | db2
  /-- SLEEP, 43_power R130. -/
  | sleep
  /-- OUTON, 43_power R131. -/
  | outon
  /-- DRVON, 43_power R132. -/
  | drvon
  /-- DB3, 43_power R133. -/
  | db3
  /-- REL2, 43_power R134. -/
  | rel2
  /-- LFSR_ADV, 41_prng R90: a function row, no control word. -/
  | lfsrAdv
  /-- NEXTB with its operand, 41_prng R91: a function row, no control word. -/
  | nextb (maxValue : Word)
  /-- STEP, 42_physics R100: the pseudo-operation of one whole tick, no control word. -/
  | step
  deriving DecidableEq, Repr

/-- The three formats of the operation table (30_encoding R59). -/
inductive Format where
  | cw
  | fn
  | pseudo
  deriving DecidableEq, Repr

/-- The format of each row of the operation table. -/
def Instr.format : Instr → Format
  | .drawx | .drawy | .agit | .integ | .clamp | .damp | .spring | .emit => .cw
  | .poll | .delay | .outoff | .drvoff | .db1 | .rel1 | .db2 | .sleep => .cw
  | .outon | .drvon | .db3 | .rel2 => .cw
  | .lfsrAdv | .nextb _ => .fn
  | .step => .pseudo

/-- The thirteen phases of the sequencer (10_state R20, 30_encoding R58). -/
inductive Phase where
  | step
  | poll
  | delay
  | outoff
  | drvoff
  | db1
  | rel1
  | db2
  | sleep
  | outon
  | drvon
  | db3
  | rel2
  deriving DecidableEq, Repr

end Sys2Proof
end

