-- ==== Sys2Proof/WellFormed.lean ====
section
/-! DEFINITION. Which operations are well formed as something the sequencer can select: those with a
control word of their own (30_encoding R59). -/

namespace Sys2Proof

/-- An operation is well formed when it has a control word: a decoder built from the table takes only
the rows of format CW (30_encoding R59). There is no operand field to check (R60). -/
def Instr.wellFormed (i : Instr) : Bool := i.format == .cw

end Sys2Proof
end

