-- ==== Sys2Proof/Decode.lean ====
section
/-! DEFINITION. The control word: phase codes, decoding (total, rejecting by name) and encoding
(30_encoding R58, R59, R63). -/

namespace Sys2Proof

/-- Why a 7-bit word selects no operation (30_encoding R63). -/
inductive DecodeError where
  /-- `phase` is 0xD, 0xE or 0xF. -/
  | reservedPhase
  /-- `ss` is not 0 and `phase` is 0x1 to 0xC. -/
  | straySubStep
  deriving DecidableEq, Repr

/-- The 4-bit code of a phase (30_encoding R58). -/
def phaseCode : Phase → BitVec 4
  | .step => 0x0#4
  | .poll => 0x1#4
  | .delay => 0x2#4
  | .outoff => 0x3#4
  | .drvoff => 0x4#4
  | .db1 => 0x5#4
  | .rel1 => 0x6#4
  | .db2 => 0x7#4
  | .sleep => 0x8#4
  | .outon => 0x9#4
  | .drvon => 0xA#4
  | .db3 => 0xB#4
  | .rel2 => 0xC#4

/-- The phase a 4-bit code stands for; none for the reserved codes 0xD to 0xF (30_encoding R63). -/
def phaseOfCode (c : BitVec 4) : Option Phase :=
  match c.toNat with
  | 0 => some .step
  | 1 => some .poll
  | 2 => some .delay
  | 3 => some .outoff
  | 4 => some .drvoff
  | 5 => some .db1
  | 6 => some .rel1
  | 7 => some .db2
  | 8 => some .sleep
  | 9 => some .outon
  | 10 => some .drvon
  | 11 => some .db3
  | 12 => some .rel2
  | _ => none

/-- The eight sub-steps of P_STEP, by `ss` (30_encoding R58). -/
def subStepInstr (ss : BitVec 3) : Instr :=
  match ss.toNat with
  | 0 => .drawx
  | 1 => .drawy
  | 2 => .agit
  | 3 => .integ
  | 4 => .clamp
  | 5 => .damp
  | 6 => .spring
  | _ => .emit

/-- Bits 6:3 of a control word. -/
def phaseBits (w : ControlWord) : BitVec 4 := w.extractLsb' 3 4

/-- Bits 2:0 of a control word. -/
def subStepBits (w : ControlWord) : BitVec 3 := w.extractLsb' 0 3

/-- The operation of a phase other than P_STEP, given that its sub-step bits are as they must be. -/
def wholePhase (ss : BitVec 3) (i : Instr) : Except DecodeError Instr :=
  if ss = 0#3 then .ok i else .error .straySubStep

/-- Which operation a control word selects (30_encoding R58); the 108 unlisted words are rejected by
name (R63). -/
def decode (w : ControlWord) : Except DecodeError Instr :=
  match phaseOfCode (phaseBits w) with
  | none => .error .reservedPhase
  | some .step => .ok (subStepInstr (subStepBits w))
  | some .poll => wholePhase (subStepBits w) .poll
  | some .delay => wholePhase (subStepBits w) .delay
  | some .outoff => wholePhase (subStepBits w) .outoff
  | some .drvoff => wholePhase (subStepBits w) .drvoff
  | some .db1 => wholePhase (subStepBits w) .db1
  | some .rel1 => wholePhase (subStepBits w) .rel1
  | some .db2 => wholePhase (subStepBits w) .db2
  | some .sleep => wholePhase (subStepBits w) .sleep
  | some .outon => wholePhase (subStepBits w) .outon
  | some .drvon => wholePhase (subStepBits w) .drvon
  | some .db3 => wholePhase (subStepBits w) .db3
  | some .rel2 => wholePhase (subStepBits w) .rel2

/-- The control word made of a phase and a sub-step: `cw = (phase, ss)`, phase in the high bits
(30_encoding R58). -/
def packWord (phase : BitVec 4) (ss : BitVec 3) : ControlWord := phase ++ ss

/-- The control word of an operation; none for the function and pseudo rows (30_encoding R58, R59). -/
def encode : Instr → Option ControlWord
  | .drawx => some (packWord (phaseCode .step) 0#3)
  | .drawy => some (packWord (phaseCode .step) 1#3)
  | .agit => some (packWord (phaseCode .step) 2#3)
  | .integ => some (packWord (phaseCode .step) 3#3)
  | .clamp => some (packWord (phaseCode .step) 4#3)
  | .damp => some (packWord (phaseCode .step) 5#3)
  | .spring => some (packWord (phaseCode .step) 6#3)
  | .emit => some (packWord (phaseCode .step) 7#3)
  | .poll => some (packWord (phaseCode .poll) 0#3)
  | .delay => some (packWord (phaseCode .delay) 0#3)
  | .outoff => some (packWord (phaseCode .outoff) 0#3)
  | .drvoff => some (packWord (phaseCode .drvoff) 0#3)
  | .db1 => some (packWord (phaseCode .db1) 0#3)
  | .rel1 => some (packWord (phaseCode .rel1) 0#3)
  | .db2 => some (packWord (phaseCode .db2) 0#3)
  | .sleep => some (packWord (phaseCode .sleep) 0#3)
  | .outon => some (packWord (phaseCode .outon) 0#3)
  | .drvon => some (packWord (phaseCode .drvon) 0#3)
  | .db3 => some (packWord (phaseCode .db3) 0#3)
  | .rel2 => some (packWord (phaseCode .rel2) 0#3)
  | .lfsrAdv | .nextb _ | .step => none

/-- The control word inside a table word: the table's mask is 0x7F, so bit 7 of the byte that holds a
7-bit word is no part of it (log 5). -/
def tableControlWord (nbits w : Nat) : ControlWord := BitVec.ofNat 7 (w % 2 ^ nbits)

/-- The instruction the decoder reads from a word of the operation table, none where it rejects. -/
def decodeTableWord (nbits w : Nat) : Option Instr :=
  (decode (tableControlWord nbits w)).toOption

end Sys2Proof
end

