-- ==== Sys2Proof/Config.lean ====
section
/-! DEFINITION. The configuration record (00_scope R6, 10_state R32), the input levels of one clock edge
(20_memory R41) and the free value for input levels nobody has fixed. -/

namespace Sys2Proof

/-- Width of the damping product, the parameter `DAMPW` (40_arith R84, 90_conflicts C9). The rule is
`w16`; `w32` is the alternative the rule names, in which the product is exact. UNVERIFIED:
the spec's decision D8, log 8. -/
inductive DampWidth where
  | w16
  | w32
  deriving DecidableEq, Repr, Inhabited

/-- The build-time parameters (00_scope R6) with the reset parameters (10_state R32). A default below
is the value this hardware takes or the spec's default; N_TICK, N_DEBOUNCE and BTN_ACTIVE have none
there and get one here (DESIGN CHOICE, logs 20 and 26). UNCALMINC = 10 is PRESUMED (log 12). -/
structure Params where
  /-- `MINUNCALM`, the lower turning point of the agitation. -/
  minUncalm : Nat := 5120
  /-- `MAXUNCALM`, the upper turning point of the agitation. -/
  maxUncalm : Nat := 30720
  /-- `UNCALMINC`, the size of the agitation increment. -/
  uncalmInc : Nat := 10
  /-- `MAXDEV`, the bound of the positions. -/
  maxDev : Nat := 100
  /-- `DAMPW`. -/
  dampWidth : DampWidth := .w16
  /-- `N_TICK`, the tick delay in steps. -/
  nTick : Nat := 0
  /-- `N_DEBOUNCE`, one debounce delay in steps. -/
  nDebounce : Nat := 0
  /-- `BTN_ACTIVE`, the level of `btn` that means pressed. -/
  btnActive : Bool := true
  /-- `SEED`. -/
  seed : Word := 0x0001#16
  /-- `RST_CENTERX`. -/
  rstCenterX : Word := 0#16
  /-- `RST_CENTERY`. -/
  rstCenterY : Word := 0#16
  /-- `RST_VELX`. -/
  rstVelX : Word := 0#16
  /-- `RST_VELY`. -/
  rstVelY : Word := 0#16
  /-- `RST_AGITATION`. -/
  rstAgitation : Word := 5120#16
  /-- `RST_DIR`. -/
  rstDir : Word := 10#16
  /-- `RST_TICK`. -/
  rstTick : Byte := 0#8
  deriving DecidableEq, Repr

/-- The levels of the input ports at one rising edge of `clk` (20_memory R41). `btn` is the raw level,
before polarity. -/
structure Inputs where
  rst : Bool
  btn : Bool
  wake : Bool
  deriving DecidableEq, Repr, Inhabited

/-- The default configuration: the one every vector of the spec uses (95_test_vectors). -/
def Config.default : Params := {}

/-- `TAP`, the mask of the Galois shift (00_scope R6). -/
def Config.tap : Word := 0xB400#16

/-- `DUTYMID`, the duty value at the centre (00_scope R6). -/
def Config.dutyMid : Int := 155

/-- `DAMPNUM` (00_scope R6). -/
def Config.dampNum : Int := 999

/-- `DAMPDEN` (00_scope R6). -/
def Config.dampDen : Int := 1000

/-- FREE VALUE: the input levels at the n-th clock edge where the state lists none. The environment may
drive any sequence of levels (93 U9, U10; D30), so nothing constrains it. Log 1. -/
opaque Config.freeInputs : Nat → Inputs

end Sys2Proof
end

