-- ==== Sys2Proof/Machine/Arith.lean ====
section
/-! DEFINITION. The integer arithmetic primitives of 40_arith. Every operand is read as the integer its
rule names, the result is exact, and the one narrowing back to a register is written out. -/

namespace Sys2Proof.Machine

/-- `U16(z)`: wrap an integer to the 16 bits of an unsigned register (40_arith R75). -/
def u16 (z : Int) : Word := BitVec.ofInt 16 z

/-- `S16(z)`: wrap an integer to the 16 bits of a signed register (40_arith R76). The bits are those of
`U16(z)`; the register is read with `toInt`. -/
def s16 (z : Int) : Word := BitVec.ofInt 16 z

/-- `lsr(v, n)`: logical shift right of a u16 (40_arith R80). -/
def lsr (v : Word) (n : Nat) : Word := v >>> n

/-- `asr(v, 2)`: arithmetic shift right of an s16 by two, rounding toward minus infinity (40_arith R81).
UNVERIFIED: the spec's decision D10, log 10. -/
def asr2 (v : Word) : Word := v.sshiftRight 2

/-- `xor16(a, b)` (40_arith R82). -/
def xor16 (a b : Word) : Word := a ^^^ b

/-- `umul32(a, b)`: the exact product of two u16 as a u32 (40_arith R83). -/
def umul32 (a b : Word) : BitVec 32 := a.setWidth 32 * b.setWidth 32

/-- Bits 31:16 of a 32-bit product (40_arith R83). -/
def highHalf (p : BitVec 32) : Word := p.extractLsb' 16 16

/-- `smul16(a, 999)`: the product wrapped to 16 bits (40_arith R84). UNVERIFIED: the spec's
decision D8, log 8. -/
def smul16 (a : Word) : Word := s16 (a.toInt * Config.dampNum)

/-- `sdivt(p, 1000)`: division truncated toward zero (40_arith R85). UNVERIFIED: the spec's
decision D9, log 9. -/
def sdivt (p : Int) : Int := p.tdiv Config.dampDen

/-- `low8(z)`: truncation to 8 bits, no saturation (40_arith R87). UNVERIFIED: the spec's
decision D11, log 11. -/
def low8 (z : Int) : Byte := BitVec.ofInt 8 z

/-- The damping product at the configured width: wrapped to 16 bits, or exact (40_arith R84). -/
def dampProduct (w : DampWidth) (v : Word) : Int :=
  match w with
  | .w16 => (smul16 v).toInt
  | .w32 => v.toInt * Config.dampNum

/-- The duty value of a position: `low8(155 + center)` (42_physics R108, 40_arith R87). -/
def dutyOf (center : Word) : Byte := low8 (Config.dutyMid + center.toInt)

end Sys2Proof.Machine
end

