-- ==== Sys2Proof/Machine/State.lean ====
section
/-! DEFINITION. The state of the core: every register of 10_state, then the model's own fields; the
reasons a step can stop; the state after reset. -/

namespace Sys2Proof.Machine

/-- The registers of the core (10_state section 1), and four fields of the model's own. Each field's
docstring names the rule it stands for. -/
structure State where
  /-- `rn`, u16, the PRNG register (R10). -/
  rn : Word
  /-- `centerX`, s16 (R11). -/
  centerX : Word
  /-- `centerY`, s16 (R12). -/
  centerY : Word
  /-- `velX`, s16 (R13). -/
  velX : Word
  /-- `velY`, s16 (R14). -/
  velY : Word
  /-- `agitation`, u16 (R15). -/
  agitation : Word
  /-- `agitationDirection`, s16 (R16; its width is the spec's D31, log 29). -/
  agitationDirection : Word
  /-- `tickCounter`, 8 bits (R17; D6, log 16). -/
  tickCounter : Byte
  /-- `movX`, s16 temporary (R18). -/
  movX : Word
  /-- `movY`, s16 temporary (R18). -/
  movY : Word
  /-- `phase`, the 4-bit code (R20). -/
  phase : BitVec 4
  /-- `ss`, the sub-step (R20). -/
  ss : BitVec 3
  /-- `dly`, the delay down-counter (R26), as wide as its parameters need (log 20). -/
  dly : Nat
  /-- `out_en` (R22). -/
  outEn : Bool
  /-- `drv_on` (R23). -/
  drvOn : Bool
  /-- `dutyA`, u8 (R24). -/
  dutyA : Byte
  /-- `dutyB`, u8 (R25). -/
  dutyB : Byte
  /-- The MODEL's: the build-time configuration of this core (00_scope R6); no step writes it. Log 2. -/
  params : Params
  /-- The MODEL's: the input levels listed for the coming clock edges, next edge first. Log 1. -/
  inputs : List Inputs
  /-- The MODEL's: clock edges so far, the argument of the free input value. Log 1. -/
  edge : Nat
  /-- The MODEL's: what a NEXTB called on its own returned (41_prng R91); nothing reads it. Log 6. -/
  drawn : Word
  deriving DecidableEq, Repr

/-- Why the machine stops with a fault. Only the step raises one, never an operation's meaning: the core
has no exceptions (60_exceptions R150). -/
inductive Fault where
  /-- Raised by the step when `phase` holds 0xD, 0xE or 0xF (30_encoding R63, R64; D21). Safe: the state
  gets no successor. -/
  | reservedPhase
  /-- Raised by the step when `ss` is not 0 outside P_STEP (30_encoding R63, R64; D21). Safe: the state
  gets no successor. -/
  | straySubStep
  deriving DecidableEq, Repr

/-- Why the model gives no meaning. -/
inductive Refusal where
  /-- Raised by an arm of `exec` whose operation has no meaning yet; no arm raises it. Safe. -/
  | notModelled (mnemonic : String)
  /-- Raised by the step when the configuration breaks 00_scope R7 or its reset record breaks
  10_state R33 (93 U12, U16, U17; 70_reset R181). Safe: such a configuration has no run. -/
  | illegalConfiguration
  deriving DecidableEq, Repr

/-- The reset state of a core built with the parameters `p` (10_state R32, 70_reset R171). -/
def State.resetWith (p : Params) : State where
  rn := p.seed
  centerX := p.rstCenterX
  centerY := p.rstCenterY
  velX := p.rstVelX
  velY := p.rstVelY
  agitation := p.rstAgitation
  agitationDirection := p.rstDir
  tickCounter := p.rstTick
  movX := 0#16
  movY := 0#16
  phase := 0x0#4
  ss := 0#3
  dly := 0
  outEn := true
  drvOn := true
  dutyA := dutyOf p.rstCenterX
  dutyB := dutyOf p.rstCenterY
  params := p
  inputs := []
  edge := 0
  drawn := 0#16

/-- The reset state with the default parameters (10_state R32). The parameters are open: a claim about
the device is stated for `resetWith p` or for every state. Logs 12, 13, 20, 26. -/
def State.reset : State := State.resetWith Config.default

end Sys2Proof.Machine
end

