-- ==== Sys2Proof/Machine/Flags.lean ====
section
/-! DEFINITION. The core has no flags (10_state R21). What stands here is what the spec has in their
place: the conditions an operation computes and uses at once (R21, 40_arith R86), and the signals that
are functions of `phase` (R21, R27). -/

namespace Sys2Proof.Machine

/-- The bit shifted out of `rn` (41_prng R90). -/
def shiftedOut (rn : Word) : Bool := rn.getLsbD 0

/-- `agitation < MINUNCALM`, unsigned, strict (40_arith R86). -/
def belowMin (s : State) : Bool := decide (s.agitation.toNat < s.params.minUncalm)

/-- `agitation > MAXUNCALM`, unsigned, strict (40_arith R86). -/
def aboveMax (s : State) : Bool := decide (s.params.maxUncalm < s.agitation.toNat)

/-- `t[1:0] = 0`: this count of the tick counter is a damping one (42_physics R106). -/
def dampingDue (t : Byte) : Bool := t.extractLsb' 0 2 == 0#2

/-- The document's PowerState (10_state R27, 30_encoding R62). -/
inductive Power where
  | running
  | sleeping
  deriving DecidableEq, Repr

/-- The four stages (10_state R21, 30_encoding R62). -/
inductive Stage where
  | running
  | suspending
  | sleeping
  | resuming
  deriving DecidableEq, Repr

/-- The 1-bit code of `power` (30_encoding R62; D14). -/
def powerCode : Power → BitVec 1
  | .running => 0#1
  | .sleeping => 1#1

/-- The 2-bit code of `stage` (30_encoding R62; D14). -/
def stageCode : Stage → BitVec 2
  | .running => 0b00#2
  | .suspending => 0b01#2
  | .sleeping => 0b10#2
  | .resuming => 0b11#2

/-- `power`: Sleeping exactly when `phase = P_SLEEP` (10_state R27). -/
def power (s : State) : Power :=
  if s.phase = phaseCode .sleep then .sleeping else .running

/-- The port `sleep_req`, the bit of `power` (20_memory R41). -/
def sleepReq (s : State) : Bool := powerCode (power s) == 1#1

/-- The stage of a phase (10_state R21). -/
def stageOfPhase : Phase → Stage
  | .step | .poll | .delay => .running
  | .outoff | .drvoff | .db1 | .rel1 | .db2 => .suspending
  | .sleep => .sleeping
  | .outon | .drvon | .db3 | .rel2 => .resuming

/-- `stage`, a function of `phase` (10_state R21); a reserved code has none (log 23). -/
def stage (s : State) : Option Stage := (phaseOfCode s.phase).map stageOfPhase

end Sys2Proof.Machine
end

