-- ==== Sys2Proof/Machine/Legality.lean ====
section
/-! DEFINITION. Which configurations are accepted (00_scope R7, 10_state R33). -/

namespace Sys2Proof.Machine

/-- The build-time constraints of 00_scope R7. -/
abbrev buildLegal (p : Params) : Prop :=
  p.minUncalm ≤ p.maxUncalm ∧ 1 ≤ p.uncalmInc ∧ p.uncalmInc ≤ p.minUncalm ∧
    p.maxUncalm + p.uncalmInc ≤ 65535 ∧ p.maxDev ≤ 100

/-- The legal reset parameters of 10_state R33. `SEED`, `RST_VELX`, `RST_VELY`, `RST_TICK` may be any
value, 0 included (log 27). -/
abbrev resetLegal (p : Params) : Prop :=
  -(p.maxDev : Int) ≤ p.rstCenterX.toInt ∧ p.rstCenterX.toInt ≤ p.maxDev ∧
    -(p.maxDev : Int) ≤ p.rstCenterY.toInt ∧ p.rstCenterY.toInt ≤ p.maxDev ∧
    p.minUncalm - p.uncalmInc ≤ p.rstAgitation.toNat ∧
    p.rstAgitation.toNat ≤ p.maxUncalm + p.uncalmInc ∧
    (p.rstDir.toInt = p.uncalmInc ∨ p.rstDir.toInt = -(p.uncalmInc : Int))

/-- A configuration record the model gives a run for (93 U12, U16, U17). Log 3. -/
abbrev Legal (p : Params) : Prop := buildLegal p ∧ resetLegal p

end Sys2Proof.Machine
end

