-- ==== Sys2Proof/Machine/Operands.lean ====
section
/-! DEFINITION. Where operations take their operands from: the input ports (20_memory R43, R44) and the
fields of `agitation` (30_encoding R61). No operation has an operand field (R60). -/

namespace Sys2Proof.Machine

/-- The input levels at the k-th coming clock edge: the listed ones, and beyond them free (log 1). -/
def inputAt (s : State) (k : Nat) : Inputs :=
  (s.inputs[k]?).getD (Config.freeInputs (s.edge + k))

/-- The input levels at this clock edge. -/
def inputNow (s : State) : Inputs := inputAt s 0

/-- `pressed()`: the button level against its polarity, at this clock edge (20_memory R43). -/
def pressed (s : State) : Bool := (inputNow s).btn == s.params.btnActive

/-- The wake input at this clock edge (20_memory R44). -/
def wakeNow (s : State) : Bool := (inputNow s).wake

/-- The reset input at this clock edge (70_reset R170). -/
def rstNow (s : State) : Bool := (inputNow s).rst

/-- `m = agitation >> 8`, the bound given to the PRNG (30_encoding R61). -/
def drawBound (s : State) : Word := lsr s.agitation 8

/-- `h = agitation >> 9`, the offset taken from the draw (30_encoding R61). -/
def drawOffset (s : State) : Word := lsr s.agitation 9

end Sys2Proof.Machine
end

