-- ==== Sys2Proof/Machine/Ops.lean ====
section
/-! DEFINITION. The shared operations on the state: entering a phase (43_power R121), the counting and
waiting phases (R124, R128), the wake (60_exceptions R154), the clock edge and reset (70_reset R170),
and the fetch of the control word (30_encoding R58). -/

namespace Sys2Proof.Machine

/-- What `dly` is loaded with on entering a phase (43_power R121). -/
def dlyLoad (params : Params) : Phase → Nat
  | .delay => params.nTick
  | .db1 | .db2 | .db3 => params.nDebounce
  | .step | .poll | .outoff | .drvoff | .rel1 | .sleep | .outon | .drvon | .rel2 => 0

/-- `enter(p)`, the only way `phase` is written (43_power R121). -/
def enter (p : Phase) (s : State) : State :=
  { s with phase := phaseCode p, ss := 0#3, dly := dlyLoad s.params p }

/-- One step of a counting phase that leaves to `p` when `dly` is 0 (43_power R124, R127, R129, R133). -/
def countDown (p : Phase) (s : State) : State :=
  if s.dly = 0 then enter p s else { s with dly := s.dly - 1 }

/-- One step of a release wait: stay while the button reads pressed, else leave to `p`
(43_power R128, R134). -/
def awaitRelease (p : Phase) (s : State) : State :=
  if pressed s then s else enter p s

/-- TAKING THE WAKE, the one asynchronous event: the whole entry is this transition. Nothing is saved, no
mode changes, and there is no return (60_exceptions R154, R155; log 34). -/
def takeWake (s : State) : State := enter .outon s

/-- What every clock edge adds around an operation: the next input levels come up (20_memory R41;
log 1). It touches no register of the core. -/
def clockEdge (s : State) : State :=
  { s with inputs := s.inputs.tail, edge := s.edge + 1 }

/-- The clock edge with `rst = 1`: every register takes its reset value (70_reset R170, D25). The
environment's input sequence goes on. -/
def takeReset (s : State) : State :=
  { State.resetWith s.params with inputs := s.inputs.tail, edge := s.edge + 1 }

/-- The control word the sequencer executes: `cw = (phase, ss)` (30_encoding R58). -/
def controlWord (s : State) : ControlWord := packWord s.phase s.ss

/-- The fault of a word the decoder rejects (30_encoding R64). -/
def faultOf : DecodeError → Fault
  | .reservedPhase => .reservedPhase
  | .straySubStep => .straySubStep

end Sys2Proof.Machine
end

