-- ==== Sys2Proof/Machine/Prng.lean ====
section
/-! DEFINITION. The PRNG: LFSR_ADV (41_prng R90) and NEXTB (41_prng R91). -/

namespace Sys2Proof.Machine

/-- One advance of the shift register (41_prng R90). -/
def lfsrNext (rn : Word) : Word :=
  if shiftedOut rn then xor16 (lsr rn 1) Config.tap else lsr rn 1

/-- The state before an advance: the inverse of `lfsrNext` (41_prng R94). -/
def lfsrPrev (y : Word) : Word :=
  if y.msb then u16 ((xor16 y Config.tap).toNat * 2 + 1) else u16 (y.toNat * 2)

/-- `n` advances of the shift register (41_prng R96, R98). -/
def lfsrIterate : Nat → Word → Word
  | 0, rn => rn
  | n + 1, rn => lfsrIterate n (lfsrNext rn)

/-- What a bounded draw leaves: the new register and the value returned (41_prng R91). -/
structure Draw where
  rn : Word
  value : Word
  deriving DecidableEq, Repr

/-- `nextBounded(maxValue)`: advance, then keep the high half of the product with the NEW register
(41_prng R91). With `maxValue = 0` it returns 0 and still advances (D23, log 27). -/
def nextBounded (maxValue rn : Word) : Draw where
  rn := lfsrNext rn
  value := highHalf (umul32 maxValue (lfsrNext rn))

/-- LFSR_ADV: the function row that advances `rn` and does nothing else (41_prng R90). -/
def execLfsrAdv (s : State) : Host.Outcome State Fault Refusal :=
  .next { s with rn := lfsrNext s.rn }

/-- NEXTB called on its own (41_prng R91). The returned value stands in the model's field `drawn`
(log 6). -/
def execNextb (maxValue : Word) (s : State) : Host.Outcome State Fault Refusal :=
  .next { s with rn := (nextBounded maxValue s.rn).rn, drawn := (nextBounded maxValue s.rn).value }

end Sys2Proof.Machine
end

