-- ==== Sys2Proof/Machine/Physics.lean ====
section
/-! DEFINITION. The Physics Engine: the eight sub-steps of a tick (42_physics R101 to R108) and STEP,
their composition (R100). -/

namespace Sys2Proof.Machine

/-- The draw of one poke: NEXTB with the bound from `agitation` (42_physics R101, R102). -/
def pokeDraw (s : State) : Draw := nextBounded (drawBound s) s.rn

/-- One poke: `S16(r - h)` (42_physics R101; 40_arith R79). -/
def poke (s : State) : Word := s16 ((pokeDraw s).value.toNat - (drawOffset s).toNat)

/-- The direction AGIT uses and stores: forced at the turning points, else kept (42_physics R103). -/
def nextDirection (s : State) : Word :=
  if aboveMax s then s16 (-(s.params.uncalmInc : Int))
  else if belowMin s then s16 s.params.uncalmInc
  else s.agitationDirection

/-- The integrated position of one axis (42_physics R104). -/
def integrate (center mov vel : Word) : Word :=
  s16 (center.toInt + mov.toInt + (asr2 vel).toInt)

/-- Saturation of one position to `[-MAXDEV, MAXDEV]`; signed, strict comparisons (42_physics R105). -/
def clampAxis (maxDev : Nat) (center : Word) : Word :=
  if center.toInt < -(maxDev : Int) then s16 (-(maxDev : Int))
  else if (maxDev : Int) < center.toInt then s16 maxDev
  else center

/-- The damped velocity of one axis: multiply, then divide toward zero (42_physics R106). -/
def dampAxis (w : DampWidth) (vel : Word) : Word := s16 (sdivt (dampProduct w vel))

/-- The velocity of one axis after DAMP at the incremented count `t` (42_physics R106; D7, log 17). -/
def dampIfDue (w : DampWidth) (t : Byte) (vel : Word) : Word :=
  if dampingDue t then dampAxis w vel else vel

/-- The velocity of one axis after the spring force (42_physics R107). -/
def springAxis (vel center : Word) : Word := s16 (vel.toInt - center.toInt)

/-- DRAWX (42_physics R101). -/
def drawX (s : State) : State :=
  { s with rn := (pokeDraw s).rn, movX := poke s, ss := 1#3 }

/-- DRAWY (42_physics R102). -/
def drawY (s : State) : State :=
  { s with rn := (pokeDraw s).rn, movY := poke s, ss := 2#3 }

/-- AGIT (42_physics R103): the tests and the sum use the agitation from before. -/
def agitate (s : State) : State :=
  { s with
    agitationDirection := nextDirection s
    agitation := u16 (s.agitation.toNat + (nextDirection s).toInt)
    ss := 3#3 }

/-- INTEG (42_physics R104). -/
def integPosition (s : State) : State :=
  { s with
    centerX := integrate s.centerX s.movX s.velX
    centerY := integrate s.centerY s.movY s.velY
    ss := 4#3 }

/-- CLAMP (42_physics R105). -/
def clampPosition (s : State) : State :=
  { s with
    centerX := clampAxis s.params.maxDev s.centerX
    centerY := clampAxis s.params.maxDev s.centerY
    ss := 5#3 }

/-- DAMP (42_physics R106): the test reads the counter after the increment. -/
def dampVelocity (s : State) : State :=
  { s with
    tickCounter := s.tickCounter + 1#8
    velX := dampIfDue s.params.dampWidth (s.tickCounter + 1#8) s.velX
    velY := dampIfDue s.params.dampWidth (s.tickCounter + 1#8) s.velY
    ss := 6#3 }

/-- SPRING (42_physics R107). -/
def springForce (s : State) : State :=
  { s with
    velX := springAxis s.velX s.centerX
    velY := springAxis s.velY s.centerY
    ss := 7#3 }

/-- EMIT (42_physics R108): both duty registers in one step (20_memory R46; log 22), then P_POLL. -/
def emitDuty (s : State) : State :=
  enter .poll { s with dutyA := dutyOf s.centerX, dutyB := dutyOf s.centerY }

/-- One whole tick: the eight sub-steps in order (42_physics R100). -/
def wholeTick (s : State) : State :=
  emitDuty (springForce (dampVelocity (clampPosition (integPosition (agitate (drawY (drawX s)))))))

/-- DRAWX, 42_physics R101. -/
def execDrawx (s : State) : Host.Outcome State Fault Refusal := .next (drawX s)

/-- DRAWY, 42_physics R102. -/
def execDrawy (s : State) : Host.Outcome State Fault Refusal := .next (drawY s)

/-- AGIT, 42_physics R103. -/
def execAgit (s : State) : Host.Outcome State Fault Refusal := .next (agitate s)

/-- INTEG, 42_physics R104. -/
def execInteg (s : State) : Host.Outcome State Fault Refusal := .next (integPosition s)

/-- CLAMP, 42_physics R105. -/
def execClamp (s : State) : Host.Outcome State Fault Refusal := .next (clampPosition s)

/-- DAMP, 42_physics R106. -/
def execDamp (s : State) : Host.Outcome State Fault Refusal := .next (dampVelocity s)

/-- SPRING, 42_physics R107. -/
def execSpring (s : State) : Host.Outcome State Fault Refusal := .next (springForce s)

/-- EMIT, 42_physics R108. -/
def execEmit (s : State) : Host.Outcome State Fault Refusal := .next (emitDuty s)

/-- STEP, 42_physics R100, run as one function, which the rule allows. -/
def execStep (s : State) : Host.Outcome State Fault Refusal := .next (wholeTick s)

end Sys2Proof.Machine
end

