-- ==== Sys2Proof/Machine/PowerCtl.lean ====
section
/-! DEFINITION. The Power Controller and the rest of the main loop (43_power R123 to R134). -/

namespace Sys2Proof.Machine

/-- POLL: one raw sample of the button, no debouncing before it (43_power R123; 90_conflicts C10). -/
def execPoll (s : State) : Host.Outcome State Fault Refusal :=
  .next (if pressed s then enter .outoff s else enter .delay s)

/-- DELAY: the tick delay (43_power R124). -/
def execDelay (s : State) : Host.Outcome State Fault Refusal := .next (countDown .step s)

/-- OUTOFF: disable the output pins; the duty registers keep their values (43_power R125). -/
def execOutoff (s : State) : Host.Outcome State Fault Refusal :=
  .next (enter .drvoff { s with outEn := false })

/-- DRVOFF: de-assert the output driver (43_power R126). -/
def execDrvoff (s : State) : Host.Outcome State Fault Refusal :=
  .next (enter .db1 { s with drvOn := false })

/-- DB1: the first debounce delay (43_power R127). -/
def execDb1 (s : State) : Host.Outcome State Fault Refusal := .next (countDown .rel1 s)

/-- REL1: wait for the release of the press that asked for sleep (43_power R128). -/
def execRel1 (s : State) : Host.Outcome State Fault Refusal := .next (awaitRelease .db2 s)

/-- DB2: the second debounce delay; leaving it makes `power` Sleeping (43_power R129). -/
def execDb2 (s : State) : Host.Outcome State Fault Refusal := .next (countDown .sleep s)

/-- SLEEP: nothing changes until the wake is seen (43_power R130). -/
def execSleep (s : State) : Host.Outcome State Fault Refusal :=
  .next (if wakeNow s then takeWake s else s)

/-- OUTON: enable the output pins (43_power R131). -/
def execOuton (s : State) : Host.Outcome State Fault Refusal :=
  .next (enter .drvon { s with outEn := true })

/-- DRVON: assert the output driver (43_power R132). -/
def execDrvon (s : State) : Host.Outcome State Fault Refusal :=
  .next (enter .db3 { s with drvOn := true })

/-- DB3: the debounce delay of the resume sequence (43_power R133). -/
def execDb3 (s : State) : Host.Outcome State Fault Refusal := .next (countDown .rel2 s)

/-- REL2: wait for the release of the press that woke the core, then the tick delay (43_power R134;
D13, log 19). -/
def execRel2 (s : State) : Host.Outcome State Fault Refusal := .next (awaitRelease .delay s)

end Sys2Proof.Machine
end

