-- ==== Sys2Proof/Machine/Dispatch.lean ====
section
/-! DEFINITION. Which meaning runs for which operation. -/

namespace Sys2Proof.Machine

/-- The meaning of each operation (30_encoding R58, R59). -/
def exec (i : Instr) (s : State) : Host.Outcome State Fault Refusal :=
  match i with
  | .drawx => Sys2Proof.Machine.execDrawx s
  | .drawy => Sys2Proof.Machine.execDrawy s
  | .agit => Sys2Proof.Machine.execAgit s
  | .integ => Sys2Proof.Machine.execInteg s
  | .clamp => Sys2Proof.Machine.execClamp s
  | .damp => Sys2Proof.Machine.execDamp s
  | .spring => Sys2Proof.Machine.execSpring s
  | .emit => Sys2Proof.Machine.execEmit s
  | .poll => Sys2Proof.Machine.execPoll s
  | .delay => Sys2Proof.Machine.execDelay s
  | .outoff => Sys2Proof.Machine.execOutoff s
  | .drvoff => Sys2Proof.Machine.execDrvoff s
  | .db1 => Sys2Proof.Machine.execDb1 s
  | .rel1 => Sys2Proof.Machine.execRel1 s
  | .db2 => Sys2Proof.Machine.execDb2 s
  | .sleep => Sys2Proof.Machine.execSleep s
  | .outon => Sys2Proof.Machine.execOuton s
  | .drvon => Sys2Proof.Machine.execDrvon s
  | .db3 => Sys2Proof.Machine.execDb3 s
  | .rel2 => Sys2Proof.Machine.execRel2 s
  | .lfsrAdv => Sys2Proof.Machine.execLfsrAdv s
  | .nextb m => Sys2Proof.Machine.execNextb m s
  | .step => Sys2Proof.Machine.execStep s

end Sys2Proof.Machine
end

