-- ==== Sys2Proof/Machine/Step.lean ====
section
/-! DEFINITION. One rising edge of the clock (70_reset R170), and the placing of a control word where the
sequencer takes its next one. -/

namespace Sys2Proof.Machine

/-- What the clock edge adds around the meaning of an operation. -/
def finishEdge : Host.Outcome State Fault Refusal → Host.Outcome State Fault Refusal
  | .next t => .next (clockEdge t)
  | .fault f => .fault f
  | .refused r => .refused r

/-- One rising edge of `clk` (70_reset R170). A configuration the spec refuses has no run (93 U12; log 3),
an unlisted control word has no successor (30_encoding R64; log 4), `rst = 1` resets every register, and
otherwise the selected operation runs. -/
def step (s : State) : Host.Outcome State Fault Refusal :=
  if Legal s.params then
    match decode (controlWord s) with
    | .error e => .fault (faultOf e)
    | .ok i => if rstNow s then .next (takeReset s) else finishEdge (exec i s)
  else .refused .illegalConfiguration

/-- `s` with the control word of a table word in `phase` and `ss`, and with `rst = 0` at the coming clock
edge, which an operation needs to run. `btn` and `wake` stay as they were. Log 30. -/
def State.withFetchWord (s : State) (nbits w : Nat) : State :=
  { s with
    phase := phaseBits (tableControlWord nbits w)
    ss := subStepBits (tableControlWord nbits w)
    inputs := { inputNow s with rst := false } :: s.inputs.tail }

end Sys2Proof.Machine
end

