-- ==== Sys2Proof/Machine/Ports.lean ====
section
/-! DEFINITION. The output ports (20_memory R41) and what the output sink shows (10_state R22). -/

namespace Sys2Proof.Machine

/-- The levels of the output ports (20_memory R41). -/
structure OutPorts where
  dutyA : Byte
  dutyB : Byte
  outEn : Bool
  drvOn : Bool
  sleepReq : Bool
  deriving DecidableEq, Repr

/-- The output ports show the registers (20_memory R42). -/
def outPorts (s : State) : OutPorts where
  dutyA := s.dutyA
  dutyB := s.dutyB
  outEn := s.outEn
  drvOn := s.drvOn
  sleepReq := sleepReq s

/-- What the sink of one channel shows: a duty value, or the platform's `OUT_DISABLED`, which has a name
and no number here (00_scope R6, 93 U7; log 24). -/
inductive SinkView where
  | duty (value : Byte)
  | outDisabled
  deriving DecidableEq, Repr

/-- What the sink shows for a channel whose duty register holds `d` (10_state R22). -/
def sinkView (s : State) (d : Byte) : SinkView :=
  if s.outEn then .duty d else .outDisabled

/-- The sink of channel A. -/
def sinkA (s : State) : SinkView := sinkView s s.dutyA

/-- The sink of channel B. -/
def sinkB (s : State) : SinkView := sinkView s s.dutyB

end Sys2Proof.Machine
end

