-- ==== Sys2Proof/Safety.lean ====
section
/-! DEFINITION. What claims are stated in terms of: runs, the flame data, and the invariants of the core
(10_state R30, R31; 42_physics R109; 43_power R136). -/

namespace Sys2Proof.Machine

/-- `k` clock edges of the machine, stopping at the first fault or refusal. -/
def runSteps (k : Nat) (s : State) : Host.Outcome State Fault Refusal :=
  Host.Core.run Sys2Proof.core k s

/-- No reset at the coming `k` clock edges. -/
def NoReset (s : State) (k : Nat) : Prop := ∀ j < k, (inputAt s j).rst = false

/-- The state after `k` clock edges that changed no register of the core: only the input sequence and the
edge count have moved on. -/
def afterEdges (k : Nat) (s : State) : State :=
  { s with inputs := s.inputs.drop k, edge := s.edge + k }

/-- Everything the Physics Engine owns: PRNGState, FlameState, the pokes and the duty registers
(10_state R30). -/
structure Flame where
  rn : Word
  centerX : Word
  centerY : Word
  velX : Word
  velY : Word
  agitation : Word
  agitationDirection : Word
  tickCounter : Byte
  movX : Word
  movY : Word
  dutyA : Byte
  dutyB : Byte
  deriving DecidableEq, Repr

/-- The flame data of a state. -/
def flame (s : State) : Flame where
  rn := s.rn
  centerX := s.centerX
  centerY := s.centerY
  velX := s.velX
  velY := s.velY
  agitation := s.agitation
  agitationDirection := s.agitationDirection
  tickCounter := s.tickCounter
  movX := s.movX
  movY := s.movY
  dutyA := s.dutyA
  dutyB := s.dutyB

/-- `n` whole ticks, one after the other, with nothing in between (42_physics R100). -/
def ticks : Nat → State → State
  | 0, s => s
  | n + 1, s => ticks n (wholeTick s)

/-- Two configurations that agree on the parameters the flame data is computed with (00_scope R6); delays,
polarity and reset parameters may differ. -/
def SameFlameParams (p q : Params) : Prop :=
  p.minUncalm = q.minUncalm ∧ p.maxUncalm = q.maxUncalm ∧ p.uncalmInc = q.uncalmInc ∧
    p.maxDev = q.maxDev ∧ p.dampWidth = q.dampWidth

/-- `phase` and `ss` hold a listed control word (30_encoding R58, R63). -/
def Listed (s : State) : Prop :=
  s.phase.toNat ≤ 12 ∧ (s.phase = 0#4 ∨ s.ss = 0#3)

/-- The sequencer is in P_STEP at a sub-step from `lo` to `hi`. -/
def InTick (s : State) (lo hi : Nat) : Prop :=
  s.phase = 0#4 ∧ lo ≤ s.ss.toNat ∧ s.ss.toNat ≤ hi

/-- A position within the clamp range of the configuration. -/
def WithinDev (p : Params) (center : Word) : Prop :=
  -(p.maxDev : Int) ≤ center.toInt ∧ center.toInt ≤ p.maxDev

/-- `out_en` in each phase, before its step takes effect (43_power R136; 95_test_vectors 6.3). -/
def outEnIn : Phase → Bool
  | .drvoff | .db1 | .rel1 | .db2 | .sleep | .outon => false
  | .step | .poll | .delay | .outoff | .drvon | .db3 | .rel2 => true

/-- `drv_on` in each phase, before its step takes effect (43_power R136; 95_test_vectors 6.3). -/
def drvOnIn : Phase → Bool
  | .db1 | .rel1 | .db2 | .sleep | .outon | .drvon => false
  | .step | .poll | .delay | .outoff | .drvoff | .db3 | .rel2 => true

/-- The tick invariants (a) to (d) of 10_state R31: what holds after reset with legal parameters and
after every complete STEP. -/
structure TickInv (s : State) : Prop where
  legal : Legal s.params
  centerX_within : WithinDev s.params s.centerX
  centerY_within : WithinDev s.params s.centerY
  agitation_ge : s.params.minUncalm - s.params.uncalmInc ≤ s.agitation.toNat
  agitation_le : s.agitation.toNat ≤ s.params.maxUncalm + s.params.uncalmInc
  direction : s.agitationDirection.toInt = s.params.uncalmInc ∨
    s.agitationDirection.toInt = -(s.params.uncalmInc : Int)
  dutyA_eq : (s.dutyA.toNat : Int) = 155 + s.centerX.toInt
  dutyB_eq : (s.dutyB.toNat : Int) = 155 + s.centerY.toInt

/-- The invariant of every clock edge: the tick invariants where the sub-steps leave them standing, the
listed control words, the output registers of each phase, and the bound of the delay counter. -/
structure Inv (s : State) : Prop where
  legal : Legal s.params
  listed : Listed s
  agitation_ge : s.params.minUncalm - s.params.uncalmInc ≤ s.agitation.toNat
  agitation_le : s.agitation.toNat ≤ s.params.maxUncalm + s.params.uncalmInc
  direction : s.agitationDirection.toInt = s.params.uncalmInc ∨
    s.agitationDirection.toInt = -(s.params.uncalmInc : Int)
  movX_range : -127 ≤ s.movX.toInt ∧ s.movX.toInt ≤ 127
  movY_range : -127 ≤ s.movY.toInt ∧ s.movY.toInt ≤ 127
  /-- Only between INTEG and CLAMP may a position leave its range (10_state R11). -/
  center_within : ¬ InTick s 4 4 → WithinDev s.params s.centerX ∧ WithinDev s.params s.centerY
  /-- Only between INTEG and EMIT may a duty lag behind its position. -/
  duty_eq : ¬ InTick s 4 7 → (s.dutyA.toNat : Int) = 155 + s.centerX.toInt ∧
    (s.dutyB.toNat : Int) = 155 + s.centerY.toInt
  dutyA_range : 155 ≤ s.dutyA.toNat + s.params.maxDev ∧ s.dutyA.toNat ≤ 155 + s.params.maxDev
  dutyB_range : 155 ≤ s.dutyB.toNat + s.params.maxDev ∧ s.dutyB.toNat ≤ 155 + s.params.maxDev
  outputs : ∀ p, phaseOfCode s.phase = some p → s.outEn = outEnIn p ∧ s.drvOn = drvOnIn p
  dly_bound : ∀ p, phaseOfCode s.phase = some p → s.dly ≤ dlyLoad s.params p

/-- How many SPRINGs have run since the last damping, as the tick counter tells it. -/
def springsSinceDamping (s : State) : Nat :=
  s.tickCounter.toNat % 4 + (if s.phase = 0#4 ∧ s.ss = 6#3 then 0 else 1)

/-- The velocity bound of 42_physics R109 (g), edge by edge: 32 from the damping and MAXDEV from each
SPRING since. -/
def VelBound (s : State) : Prop :=
  |s.velX.toInt| ≤ 32 + s.params.maxDev * springsSinceDamping s ∧
    |s.velY.toInt| ≤ 32 + s.params.maxDev * springsSinceDamping s

end Sys2Proof.Machine
end

