-- ==== Sys2Proof/Certificates/Slice0/Obligations.lean ====
section
/-! DEFINITION. The statements for the provers. Integers stand where the spec's rules have integers:
`Int.bmod z 65536` is S16 (40_arith R76), `/` on an integer with a positive divisor rounds toward minus
infinity, `Int.tdiv` truncates toward zero. -/

open Sys2Proof Sys2Proof.Machine

/-! ## The PRNG -/

/-- 41_prng R90. LFSR_ADV, bit by bit, and nothing but `rn` changes. -/
def Obligations.LfsrAdvanceBitByBit : Prop :=
  ∀ s : State, ∃ t, exec .lfsrAdv s = .next t ∧ t = { s with rn := t.rn } ∧
    t.rn.getLsbD 15 = s.rn.getLsbD 0 ∧
    t.rn.getLsbD 14 = s.rn.getLsbD 15 ∧
    t.rn.getLsbD 13 = (s.rn.getLsbD 14 ^^ s.rn.getLsbD 0) ∧
    t.rn.getLsbD 12 = (s.rn.getLsbD 13 ^^ s.rn.getLsbD 0) ∧
    t.rn.getLsbD 11 = s.rn.getLsbD 12 ∧
    t.rn.getLsbD 10 = (s.rn.getLsbD 11 ^^ s.rn.getLsbD 0) ∧
    ∀ i, i ≤ 9 → t.rn.getLsbD i = s.rn.getLsbD (i + 1)

/-- 41_prng R91. NEXTB advances `rn` once and returns `floor(maxValue * rn / 65536)` of the NEW register;
with the bound 0 too. That the returned value stands in the field `drawn` is the model's choice (log 6). -/
def Obligations.NextbAdvancesAndScales : Prop :=
  ∀ (s : State) (m : Word), ∃ t, exec (.nextb m) s = .next t ∧
    t = { s with rn := t.rn, drawn := t.drawn } ∧
    exec .lfsrAdv s = .next { s with rn := t.rn } ∧
    t.drawn.toNat = m.toNat * t.rn.toNat / 65536

/-- The contract of nextBounded (the inference 41_prng R92): for a bound of at least 1 the value is below
it, for a bound up to 255 it is at most 254, and for the bound 0 it is 0. -/
def Obligations.NextbStaysBelowBound : Prop :=
  ∀ (s t : State) (m : Word), exec (.nextb m) s = .next t →
    (1 ≤ m.toNat → t.drawn.toNat ≤ m.toNat - 1) ∧
    (m.toNat ≤ 255 → t.drawn.toNat ≤ 254) ∧
    (m.toNat = 0 → t.drawn.toNat = 0)

/-- The inference 41_prng R94: one advance is a bijection with the stated inverse. -/
def Obligations.LfsrAdvanceIsInvertible : Prop :=
  (∀ rn : Word, lfsrPrev (lfsrNext rn) = rn) ∧ (∀ y : Word, lfsrNext (lfsrPrev y) = y)

/-- The inference 41_prng R94: from 1 the first return to 1 is after exactly 65535 advances, and every
non-zero value is on the way. -/
def Obligations.LfsrHasFullPeriod : Prop :=
  lfsrIterate 65535 1#16 = 1#16 ∧
    (∀ n, 0 < n → n < 65535 → lfsrIterate n 1#16 ≠ 1#16) ∧
    (∀ y : Word, y ≠ 0#16 → ∃ n, n < 65535 ∧ lfsrIterate n 1#16 = y)

/-- The inference 41_prng R93 on every clock edge without reset: a zero register stays zero and both pokes
become `-h`; a non-zero register stays non-zero. -/
def Obligations.ZeroRegisterIsAFixedPoint : Prop :=
  ∀ s t : State, rstNow s = false → step s = .next t →
    (t.rn = 0#16 ↔ s.rn = 0#16) ∧
    (s.rn = 0#16 → controlWord s = 0x00#7 → t.movX.toInt = -((s.agitation.toNat / 512 : Nat) : Int)) ∧
    (s.rn = 0#16 → controlWord s = 0x01#7 → t.movY.toInt = -((s.agitation.toNat / 512 : Nat) : Int))

/-! ## The sub-steps of the tick -/

/-- 42_physics R101. DRAWX: one advance of `rn`, the poke from the agitation as it stands, with the range
of the rule; nothing else changes but `ss`. -/
def Obligations.DrawxResult : Prop :=
  ∀ s : State, ∃ t, exec .drawx s = .next t ∧
    t = { s with rn := t.rn, movX := t.movX, ss := 1#3 } ∧
    exec .lfsrAdv s = .next { s with rn := t.rn } ∧
    t.movX.toInt = ((s.agitation.toNat / 256 * t.rn.toNat / 65536 : Nat) : Int)
      - ((s.agitation.toNat / 512 : Nat) : Int) ∧
    -((s.agitation.toNat / 512 : Nat) : Int) ≤ t.movX.toInt ∧
    (1 ≤ s.agitation.toNat / 256 → t.movX.toInt ≤
      ((s.agitation.toNat / 256 : Nat) : Int) - 1 - ((s.agitation.toNat / 512 : Nat) : Int)) ∧
    (s.agitation.toNat < 512 → t.movX = 0#16) ∧
    -127 ≤ t.movX.toInt ∧ t.movX.toInt ≤ 127

/-- 42_physics R102. DRAWY: the same formula with the second draw. -/
def Obligations.DrawyResult : Prop :=
  ∀ s : State, ∃ t, exec .drawy s = .next t ∧
    t = { s with rn := t.rn, movY := t.movY, ss := 2#3 } ∧
    exec .lfsrAdv s = .next { s with rn := t.rn } ∧
    t.movY.toInt = ((s.agitation.toNat / 256 * t.rn.toNat / 65536 : Nat) : Int)
      - ((s.agitation.toNat / 512 : Nat) : Int) ∧
    -((s.agitation.toNat / 512 : Nat) : Int) ≤ t.movY.toInt ∧
    (1 ≤ s.agitation.toNat / 256 → t.movY.toInt ≤
      ((s.agitation.toNat / 256 : Nat) : Int) - 1 - ((s.agitation.toNat / 512 : Nat) : Int)) ∧
    (s.agitation.toNat < 512 → t.movY = 0#16) ∧
    -127 ≤ t.movY.toInt ∧ t.movY.toInt ≤ 127

/-- 42_physics R103. AGIT: both tests on the value from before, the sum with the direction after the
tests, modulo 65536. -/
def Obligations.AgitResult : Prop :=
  ∀ s : State, buildLegal s.params → ∃ t, exec .agit s = .next t ∧
    t = { s with agitationDirection := t.agitationDirection, agitation := t.agitation, ss := 3#3 } ∧
    (s.agitation.toNat < s.params.minUncalm →
      t.agitationDirection.toInt = s.params.uncalmInc) ∧
    (s.params.maxUncalm < s.agitation.toNat →
      t.agitationDirection.toInt = -(s.params.uncalmInc : Int)) ∧
    (s.params.minUncalm ≤ s.agitation.toNat → s.agitation.toNat ≤ s.params.maxUncalm →
      t.agitationDirection = s.agitationDirection) ∧
    (t.agitation.toNat : Int) = (s.agitation.toNat + t.agitationDirection.toInt) % 65536

/-- 40_arith R78 and the proof of 42_physics R109 (b): from a state within the invariants AGIT never
wraps, and the agitation stays within one increment of its limits. -/
def Obligations.AgitNeverWrapsWithinBounds : Prop :=
  ∀ s t : State, TickInv s → exec .agit s = .next t →
    (t.agitation.toNat : Int) = s.agitation.toNat + t.agitationDirection.toInt ∧
    s.params.minUncalm - s.params.uncalmInc ≤ t.agitation.toNat ∧
    t.agitation.toNat ≤ s.params.maxUncalm + s.params.uncalmInc

/-- 42_physics R104. INTEG on both axes, in 16-bit two's complement, with the quarter of the velocity
rounded toward minus infinity. -/
def Obligations.IntegResult : Prop :=
  ∀ s : State, ∃ t, exec .integ s = .next t ∧
    t = { s with centerX := t.centerX, centerY := t.centerY, ss := 4#3 } ∧
    t.centerX.toInt = Int.bmod (s.centerX.toInt + s.movX.toInt + s.velX.toInt / 4) 65536 ∧
    t.centerY.toInt = Int.bmod (s.centerY.toInt + s.movY.toInt + s.velY.toInt / 4) 65536

/-- 42_physics R105. CLAMP saturates each axis to `[-MAXDEV, MAXDEV]`. The premise is the constraint of
00_scope R7 on MAXDEV. -/
def Obligations.ClampResult : Prop :=
  ∀ s : State, s.params.maxDev ≤ 100 → ∃ t, exec .clamp s = .next t ∧
    t = { s with centerX := t.centerX, centerY := t.centerY, ss := 5#3 } ∧
    t.centerX.toInt = max (-(s.params.maxDev : Int)) (min (s.params.maxDev : Int) s.centerX.toInt) ∧
    t.centerY.toInt = max (-(s.params.maxDev : Int)) (min (s.params.maxDev : Int) s.centerY.toInt)

/-- 42_physics R106, with the rule's `DAMPW = 16`. DAMP counts the tick modulo 256; on a count divisible
by 4 it scales both velocities, product wrapped to 16 bits, quotient truncated toward zero, result within
32; on any other count it leaves them. -/
def Obligations.DampResult : Prop :=
  ∀ s : State, s.params.dampWidth = .w16 → ∃ t, exec .damp s = .next t ∧
    t = { s with tickCounter := t.tickCounter, velX := t.velX, velY := t.velY, ss := 6#3 } ∧
    t.tickCounter.toNat = (s.tickCounter.toNat + 1) % 256 ∧
    (t.tickCounter.toNat % 4 ≠ 0 → t.velX = s.velX ∧ t.velY = s.velY) ∧
    (t.tickCounter.toNat % 4 = 0 →
      t.velX.toInt = Int.tdiv (Int.bmod (s.velX.toInt * 999) 65536) 1000 ∧
      t.velY.toInt = Int.tdiv (Int.bmod (s.velY.toInt * 999) 65536) 1000 ∧
      |t.velX.toInt| ≤ 32 ∧ |t.velY.toInt| ≤ 32)

/-- The alternative `DAMPW = 32` that 40_arith R84 names: the product is exact. It is a discriminator of
the spec (95_test_vectors section 5), carried as a parameter (log 8). -/
def Obligations.DampWithExactProduct : Prop :=
  ∀ s : State, s.params.dampWidth = .w32 → ∃ t, exec .damp s = .next t ∧
    t = { s with tickCounter := t.tickCounter, velX := t.velX, velY := t.velY, ss := 6#3 } ∧
    t.tickCounter.toNat = (s.tickCounter.toNat + 1) % 256 ∧
    (t.tickCounter.toNat % 4 ≠ 0 → t.velX = s.velX ∧ t.velY = s.velY) ∧
    (t.tickCounter.toNat % 4 = 0 →
      t.velX.toInt = Int.tdiv (s.velX.toInt * 999) 1000 ∧
      t.velY.toInt = Int.tdiv (s.velY.toInt * 999) 1000)

/-- 42_physics R107. SPRING subtracts the position from the velocity, modulo 65536, on both axes. -/
def Obligations.SpringResult : Prop :=
  ∀ s : State, ∃ t, exec .spring s = .next t ∧
    t = { s with velX := t.velX, velY := t.velY, ss := 7#3 } ∧
    t.velX.toInt = Int.bmod (s.velX.toInt - s.centerX.toInt) 65536 ∧
    t.velY.toInt = Int.bmod (s.velY.toInt - s.centerY.toInt) 65536

/-- 42_physics R108. EMIT writes both duties, modulo 256, and enters P_POLL with no delay; for a position
within 100 the duty is 155 plus the position. -/
def Obligations.EmitResult : Prop :=
  ∀ s : State, ∃ t, exec .emit s = .next t ∧
    t = { s with dutyA := t.dutyA, dutyB := t.dutyB, phase := 0x1#4, ss := 0#3, dly := 0 } ∧
    (t.dutyA.toNat : Int) = (155 + s.centerX.toInt) % 256 ∧
    (t.dutyB.toNat : Int) = (155 + s.centerY.toInt) % 256 ∧
    (|s.centerX.toInt| ≤ 100 → (t.dutyA.toNat : Int) = 155 + s.centerX.toInt) ∧
    (|s.centerY.toInt| ≤ 100 → (t.dutyB.toNat : Int) = 155 + s.centerY.toInt)

/-- 42_physics R100. STEP is the eight sub-steps in order, and writes no register but the rule's list. -/
def Obligations.StepIsTheEightSubSteps : Prop :=
  ∀ s : State, ∃ s1 s2 s3 s4 s5 s6 s7 t,
    exec .drawx s = .next s1 ∧ exec .drawy s1 = .next s2 ∧ exec .agit s2 = .next s3 ∧
    exec .integ s3 = .next s4 ∧ exec .clamp s4 = .next s5 ∧ exec .damp s5 = .next s6 ∧
    exec .spring s6 = .next s7 ∧ exec .emit s7 = .next t ∧ exec .step s = .next t ∧
    t = { s with
      rn := t.rn, movX := t.movX, movY := t.movY, agitationDirection := t.agitationDirection,
      agitation := t.agitation, centerX := t.centerX, centerY := t.centerY,
      tickCounter := t.tickCounter, velX := t.velX, velY := t.velY, dutyA := t.dutyA,
      dutyB := t.dutyB, phase := 0x1#4, ss := 0#3, dly := 0 }

/-- The inference at the end of 42_physics R100: eight clock edges from the start of P_STEP do what the one
operation STEP does. Besides, the edges move the input sequence (log 1). -/
def Obligations.EightEdgesMakeOneTick : Prop :=
  ∀ s : State, Legal s.params → controlWord s = 0x00#7 → NoReset s 8 →
    ∃ t, exec .step s = .next t ∧ runSteps 8 s = .next (afterEdges 8 t)

/-! ## The main loop and the Power Controller -/

/-- 43_power R123 (with 20_memory R43 for the button). POLL takes one sample of the level: pressed goes to
P_OUTOFF, released to P_DELAY with the tick delay loaded. -/
def Obligations.PollResult : Prop :=
  ∀ s : State, exec .poll s = .next
    (if (inputNow s).btn = s.params.btnActive
      then { s with phase := 0x3#4, ss := 0#3, dly := 0 }
      else { s with phase := 0x2#4, ss := 0#3, dly := s.params.nTick })

/-- 43_power R124, R127, R133 (and the pseudocode of R129). The counting phases decrement `dly` until it
is 0 and then leave to their one successor, with `dly` 0 there. -/
def Obligations.CountingPhaseResults : Prop :=
  ∀ s : State,
    (s.dly ≠ 0 → ∀ i ∈ [Instr.delay, Instr.db1, Instr.db2, Instr.db3],
      exec i s = .next { s with dly := s.dly - 1 }) ∧
    (s.dly = 0 →
      exec .delay s = .next { s with phase := 0x0#4, ss := 0#3, dly := 0 } ∧
      exec .db1 s = .next { s with phase := 0x6#4, ss := 0#3, dly := 0 } ∧
      exec .db2 s = .next { s with phase := 0x8#4, ss := 0#3, dly := 0 } ∧
      exec .db3 s = .next { s with phase := 0xC#4, ss := 0#3, dly := 0 })

/-- 43_power R125, R126, R131, R132. The four switches write their one output register, keep the duties,
and go to their successor, with the debounce delay loaded on entering DB1 and DB3. -/
def Obligations.OutputSwitchResults : Prop :=
  ∀ s : State,
    exec .outoff s = .next { s with outEn := false, phase := 0x4#4, ss := 0#3, dly := 0 } ∧
    exec .drvoff s = .next
      { s with drvOn := false, phase := 0x5#4, ss := 0#3, dly := s.params.nDebounce } ∧
    exec .outon s = .next { s with outEn := true, phase := 0xA#4, ss := 0#3, dly := 0 } ∧
    exec .drvon s = .next
      { s with drvOn := true, phase := 0xB#4, ss := 0#3, dly := s.params.nDebounce }

/-- 43_power R128, R134. The release waits change no register while the sample reads pressed, and leave
with the first sample that does not. -/
def Obligations.ReleaseWaitResults : Prop :=
  ∀ s : State,
    ((inputNow s).btn = s.params.btnActive →
      exec .rel1 s = .next s ∧ exec .rel2 s = .next s) ∧
    ((inputNow s).btn ≠ s.params.btnActive →
      exec .rel1 s = .next { s with phase := 0x7#4, ss := 0#3, dly := s.params.nDebounce } ∧
      exec .rel2 s = .next { s with phase := 0x2#4, ss := 0#3, dly := s.params.nTick })

/-- 43_power R130. SLEEP changes no register without a wake, and a wake enters P_OUTON and changes nothing
else; in every state within the invariant the outputs are off and the sleep request is up meanwhile. -/
def Obligations.SleepResult : Prop :=
  ∀ s : State,
    ((inputNow s).wake = false → exec .sleep s = .next s) ∧
    ((inputNow s).wake = true →
      exec .sleep s = .next { s with phase := 0x9#4, ss := 0#3, dly := 0 }) ∧
    (Inv s → s.phase = 0x8#4 →
      power s = .sleeping ∧ sleepReq s = true ∧ s.outEn = false ∧ s.drvOn = false)

/-- 43_power R120. The successor of every listed control word, over one clock edge without reset. -/
def Obligations.SuccessorTable : Prop :=
  ∀ s : State, Legal s.params → Listed s → rstNow s = false → ∃ t, step s = .next t ∧
    (s.phase = 0x0#4 → s.ss ≠ 7#3 → t.phase = 0x0#4 ∧ t.ss = s.ss + 1#3) ∧
    (s.phase = 0x0#4 → s.ss = 7#3 → t.phase = 0x1#4) ∧
    (s.phase = 0x1#4 → t.phase = if pressed s then 0x3#4 else 0x2#4) ∧
    (s.phase = 0x2#4 → t.phase = if s.dly = 0 then 0x0#4 else 0x2#4) ∧
    (s.phase = 0x3#4 → t.phase = 0x4#4) ∧
    (s.phase = 0x4#4 → t.phase = 0x5#4) ∧
    (s.phase = 0x5#4 → t.phase = if s.dly = 0 then 0x6#4 else 0x5#4) ∧
    (s.phase = 0x6#4 → t.phase = if pressed s then 0x6#4 else 0x7#4) ∧
    (s.phase = 0x7#4 → t.phase = if s.dly = 0 then 0x8#4 else 0x7#4) ∧
    (s.phase = 0x8#4 → t.phase = if wakeNow s then 0x9#4 else 0x8#4) ∧
    (s.phase = 0x9#4 → t.phase = 0xA#4) ∧
    (s.phase = 0xA#4 → t.phase = 0xB#4) ∧
    (s.phase = 0xB#4 → t.phase = if s.dly = 0 then 0xC#4 else 0xB#4) ∧
    (s.phase = 0xC#4 → t.phase = if pressed s then 0xC#4 else 0x2#4) ∧
    (s.phase ≠ 0x0#4 ∨ s.ss = 7#3 → t.ss = 0#3)

/-- 43_power R121 (the length of a counting phase), for P_DELAY, P_DB1, P_DB2, P_DB3: with `dly = N` the
phase lasts `N + 1` edges, N that only count and one that leaves, and no register but the sequencer's
changes. Besides, the edges move the input sequence and the edge count: the model's choice (log 1). -/
def Obligations.CountingPhaseLastsLoadPlusOne : Prop :=
  ∀ (s : State) (here there : Phase),
    (here, there) ∈ [(Phase.delay, Phase.step), (.db1, .rel1), (.db2, .sleep), (.db3, .rel2)] →
    Legal s.params → s.phase = phaseCode here → s.ss = 0#3 → NoReset s (s.dly + 1) →
    (∀ j ≤ s.dly, runSteps j s = .next (afterEdges j { s with dly := s.dly - j })) ∧
    runSteps (s.dly + 1) s =
      .next (afterEdges (s.dly + 1) { s with phase := phaseCode there, ss := 0#3, dly := 0 })

/-- The inference 43_power R140 (70_reset R182): the release waits and the sleep last as long as the
environment does not end them, and change no register meanwhile. Besides, the edges move the input
sequence and the edge count: the model's choice (log 1). -/
def Obligations.WaitsHaveNoTimeout : Prop :=
  ∀ (s : State) (k : Nat), Legal s.params → s.ss = 0#3 → NoReset s k →
    (((s.phase = phaseCode .rel1 ∨ s.phase = phaseCode .rel2) ∧
        ∀ j < k, (inputAt s j).btn = s.params.btnActive) ∨
      (s.phase = phaseCode .sleep ∧ ∀ j < k, (inputAt s j).wake = false)) →
    runSteps k s = .next (afterEdges k s)

/-- 70_reset R184 and 95_test_vectors 6.2: with the button released at the poll, one trip round the main
loop is `8 + 1 + (N_TICK + 1)` edges, computes one tick, and is back at the start of P_STEP. Besides, the
edges move the input sequence and the edge count: the model's choice (log 1). -/
def Obligations.MainLoopTripComputesOneTick : Prop :=
  ∀ s : State, Legal s.params → controlWord s = 0x00#7 →
    NoReset s (8 + 1 + (s.params.nTick + 1)) → (inputAt s 8).btn ≠ s.params.btnActive →
    ∃ t, exec .step s = .next t ∧
      runSteps (8 + 1 + (s.params.nTick + 1)) s =
        .next (afterEdges (8 + 1 + (s.params.nTick + 1))
          { t with phase := 0x0#4, ss := 0#3, dly := 0 })

/-- 43_power R137, first half, with the length of 95_test_vectors 6.2: a press seen in POLL, held for `k`
samples of REL1 and then released, leads to P_SLEEP with the sinks at the disabled value and the flame
data as they were. -/
def Obligations.PressAndReleaseLeadToSleep : Prop :=
  ∀ (s : State) (k : Nat), Legal s.params → controlWord s = 0x08#7 →
    NoReset s (1 + 1 + 1 + (s.params.nDebounce + 1) + k + 1 + (s.params.nDebounce + 1)) →
    (inputAt s 0).btn = s.params.btnActive →
    (∀ j < k, (inputAt s (4 + s.params.nDebounce + j)).btn = s.params.btnActive) →
    (inputAt s (4 + s.params.nDebounce + k)).btn ≠ s.params.btnActive →
    ∃ t, runSteps (1 + 1 + 1 + (s.params.nDebounce + 1) + k + 1 + (s.params.nDebounce + 1)) s = .next t ∧
      controlWord t = 0x40#7 ∧ power t = .sleeping ∧ t.outEn = false ∧ t.drvOn = false ∧
      sinkA t = .outDisabled ∧ sinkB t = .outDisabled ∧ flame t = flame s

/-- 43_power R137, second half, with the length of 95_test_vectors 6.2: a wake leads through the resume
sequence, `k` pressed samples of REL2 and a release to P_DELAY and then to the start of P_STEP, outputs
on, flame data as they were. -/
def Obligations.WakeLeadsBackToTheTick : Prop :=
  ∀ (s : State) (k : Nat), Legal s.params → controlWord s = 0x40#7 →
    NoReset s (1 + 1 + 1 + (s.params.nDebounce + 1) + k + 1 + (s.params.nTick + 1)) →
    (inputAt s 0).wake = true →
    (∀ j < k, (inputAt s (4 + s.params.nDebounce + j)).btn = s.params.btnActive) →
    (inputAt s (4 + s.params.nDebounce + k)).btn ≠ s.params.btnActive →
    (∃ u, runSteps (1 + 1 + 1 + (s.params.nDebounce + 1) + k + 1) s = .next u ∧
      controlWord u = 0x10#7 ∧ flame u = flame s) ∧
    ∃ t, runSteps (1 + 1 + 1 + (s.params.nDebounce + 1) + k + 1 + (s.params.nTick + 1)) s = .next t ∧
      controlWord t = 0x00#7 ∧ power t = .running ∧ t.outEn = true ∧ t.drvOn = true ∧
      sinkA t = .duty s.dutyA ∧ sinkB t = .duty s.dutyB ∧ flame t = flame s

/-! ## The clock edge, reset and the control word -/

/-- 70_reset R170. Where `phase` and `ss` hold a word that decodes to a well-formed operation and `rst` is
0, the edge is that operation; around it the edge adds only that the input sequence moves on (log 1). -/
def Obligations.EdgeRunsTheDecodedOperation : Prop :=
  ∀ (s : State) (i : Instr), Legal s.params → decode (controlWord s) = .ok i → rstNow s = false →
    i.wellFormed = true ∧
    (∀ t, exec i s = .next t → step s = .next (afterEdges 1 t)) ∧
    (∀ f, exec i s = .fault f → step s = .fault f) ∧
    (∀ r, exec i s = .refused r → step s = .refused r)

/-- The model's interface (log 30): a table word that decodes runs as the very next operation, from every
state with a legal configuration. -/
def Obligations.PlacedWordRunsNext : Prop :=
  ∀ (s : State) (nbits w : Nat) (i : Instr), Legal s.params → decodeTableWord nbits w = some i →
    decode (controlWord (s.withFetchWord nbits w)) = .ok i ∧
    step (s.withFetchWord nbits w) = finishEdge (exec i (s.withFetchWord nbits w)) ∧
    flame (s.withFetchWord nbits w) = flame s

/-- 60_exceptions R153 with 70_reset R170: `rst = 1` wins over every listed phase and every other input,
and every register takes its reset value. The model's own fields are the model's choice: the input sequence
and the edge count move on (log 1), the configuration stays (log 2), and `drawn` is 0 (log 6). -/
def Obligations.ResetWinsOverEverything : Prop :=
  ∀ s : State, Legal s.params → Listed s → rstNow s = true →
    step s = .next { State.resetWith s.params with inputs := s.inputs.tail, edge := s.edge + 1 }

/-- 70_reset R171. The reset state for every choice of the parameters. -/
def Obligations.ResetStateValues : Prop :=
  ∀ p : Params,
    let s := State.resetWith p
    s.rn = p.seed ∧ s.centerX = p.rstCenterX ∧ s.centerY = p.rstCenterY ∧ s.velX = p.rstVelX ∧
    s.velY = p.rstVelY ∧ s.agitation = p.rstAgitation ∧ s.agitationDirection = p.rstDir ∧
    s.tickCounter = p.rstTick ∧ s.movX = 0#16 ∧ s.movY = 0#16 ∧ controlWord s = 0x00#7 ∧
    decode (controlWord s) = .ok .drawx ∧ s.dly = 0 ∧ s.outEn = true ∧ s.drvOn = true ∧
    (s.dutyA.toNat : Int) = (155 + p.rstCenterX.toInt) % 256 ∧
    (s.dutyB.toNat : Int) = (155 + p.rstCenterY.toInt) % 256 ∧
    power s = .running ∧ stage s = some .running ∧ sleepReq s = false

/-- Decoding and encoding agree in both directions, over every operation and every 7-bit word: no bit of a
control word is dropped (30_encoding sections 2 and 5). -/
def Obligations.DecodeAndEncodeAgree : Prop :=
  (∀ i : Instr, i.wellFormed = true → ∃ w, encode i = some w ∧ decode w = .ok i) ∧
  (∀ (w : ControlWord) (i : Instr), decode w = .ok i → encode i = some w ∧ i.wellFormed = true) ∧
  (∀ i : Instr, i.wellFormed = false → encode i = none)

/-- 30_encoding R58, the words of each family written out: 0x00 DRAWX, 0x05 DAMP, 0x07 EMIT, 0x08 POLL,
0x30 REL1, 0x40 SLEEP, 0x58 DB3, 0x60 REL2. -/
def Obligations.WordsDecodeAsWritten : Prop :=
  decode 0b0000000#7 = .ok .drawx ∧ decode 0b0000101#7 = .ok .damp ∧
  decode 0b0000111#7 = .ok .emit ∧ decode 0b0001000#7 = .ok .poll ∧
  decode 0b0110000#7 = .ok .rel1 ∧ decode 0b1000000#7 = .ok .sleep ∧
  decode 0b1011000#7 = .ok .db3 ∧ decode 0b1100000#7 = .ok .rel2

/-- 30_encoding R64. An unlisted control word is a fault, by name, and has no successor, whatever the
inputs. That this holds under `rst = 1` too is the model's choice (log 4). -/
def Obligations.UnlistedWordsFault : Prop :=
  ∀ s : State, Legal s.params →
    (13 ≤ s.phase.toNat → step s = .fault .reservedPhase) ∧
    (1 ≤ s.phase.toNat → s.phase.toNat ≤ 12 → s.ss ≠ 0#3 → step s = .fault .straySubStep)

/-- 93_implementation_defined U12, U16, U17 (log 3): a configuration that breaks 00_scope R7 or whose
reset record breaks 10_state R33 has no run. -/
def Obligations.IllegalConfigurationHasNoRun : Prop :=
  ∀ s : State, ¬ Legal s.params → step s = .refused .illegalConfiguration

/-! ## Whole-machine rules -/

/-- 10_state R30 and R34, 41_prng R95. Over one edge without reset: P_STEP writes neither `out_en` nor
`drv_on`; every other phase leaves all flame data, the duty registers with it; `rn` changes in DRAWX and
DRAWY only, by one advance. That the configuration stands in State and never changes is the model's choice
(log 2). -/
def Obligations.EachComponentWritesItsOwnState : Prop :=
  ∀ s t : State, rstNow s = false → step s = .next t →
    t.params = s.params ∧
    (s.phase = 0x0#4 → t.outEn = s.outEn ∧ t.drvOn = s.drvOn) ∧
    (s.phase ≠ 0x0#4 → flame t = flame s) ∧
    (t.rn = if controlWord s = 0x00#7 ∨ controlWord s = 0x01#7 then lfsrNext s.rn else s.rn)

/-- 20_memory R43, R44 and 60_exceptions R156: `wake` has no effect and leaves no trace outside P_SLEEP,
nor `btn` outside P_POLL, P_REL1, P_REL2. -/
def Obligations.UnreadInputsHaveNoEffect : Prop :=
  ∀ (s : State) (now : Inputs) (rest : List Inputs) (b : Bool),
    (s.phase ≠ 0x8#4 →
      step { s with inputs := { now with wake := b } :: rest } = step { s with inputs := now :: rest }) ∧
    (s.phase ≠ 0x1#4 → s.phase ≠ 0x6#4 → s.phase ≠ 0xC#4 →
      step { s with inputs := { now with btn := b } :: rest } = step { s with inputs := now :: rest })

/-- 20_memory R45, R46, R50: over one edge without reset the duty ports change in EMIT only, both
together, to 155 plus the positions modulo 256; no port changes in the sub-steps before it. -/
def Obligations.DutyPortsChangeInEmitOnly : Prop :=
  ∀ s t : State, rstNow s = false → step s = .next t →
    (controlWord s ≠ 0x07#7 → t.dutyA = s.dutyA ∧ t.dutyB = s.dutyB) ∧
    (controlWord s = 0x07#7 →
      (t.dutyA.toNat : Int) = (155 + s.centerX.toInt) % 256 ∧
      (t.dutyB.toNat : Int) = (155 + s.centerY.toInt) % 256) ∧
    (s.phase = 0x0#4 → s.ss ≠ 7#3 → outPorts t = outPorts s)

/-- 20_memory R47. `out_en`, `drv_on` and `sleep_req` change only in the steps named there; on suspend
`out_en` falls one step before `drv_on`, on resume it rises one step before. -/
def Obligations.OutputsSwitchInOrder : Prop :=
  (∀ s t : State, rstNow s = false → step s = .next t →
    (t.outEn ≠ s.outEn → s.phase = 0x3#4 ∨ s.phase = 0x9#4) ∧
    (t.drvOn ≠ s.drvOn → s.phase = 0x4#4 ∨ s.phase = 0xA#4) ∧
    (sleepReq t ≠ sleepReq s → s.phase = 0x7#4 ∨ s.phase = 0x8#4)) ∧
  (∀ s : State, Inv s → NoReset s 2 → s.phase = 0x3#4 ∨ s.phase = 0x9#4 →
    ∃ t u, step s = .next t ∧ step t = .next u ∧
      t.outEn = (!s.outEn) ∧ t.drvOn = s.drvOn ∧ u.outEn = t.outEn ∧ u.drvOn = (!s.drvOn))

/-- 10_state R27. `power` is Sleeping exactly in P_SLEEP; without a reset it becomes Sleeping only in the
last step of P_DB2 and Running again only in the step of P_SLEEP that sees the wake. -/
def Obligations.PowerChangesInTwoStepsOnly : Prop :=
  (∀ s : State, (power s = .sleeping ↔ s.phase = 0x8#4) ∧ (sleepReq s = true ↔ power s = .sleeping)) ∧
  (∀ s t : State, rstNow s = false → step s = .next t →
    (power s = .running → power t = .sleeping → s.phase = 0x7#4 ∧ s.dly = 0) ∧
    (power s = .sleeping → power t = .running → wakeNow s = true))

/-- 10_state R21 and 30_encoding R62. `stage` is the function of `phase` in the table, with its 2-bit code,
and its code is Sleeping's exactly when `power` is Sleeping. -/
def Obligations.StageFollowsPhase : Prop :=
  ∀ s : State,
    ((s.phase = 0x0#4 ∨ s.phase = 0x1#4 ∨ s.phase = 0x2#4) ↔
      (stage s).map stageCode = some 0b00#2) ∧
    ((0x3#4 ≤ s.phase ∧ s.phase ≤ 0x7#4) ↔ (stage s).map stageCode = some 0b01#2) ∧
    (s.phase = 0x8#4 ↔ (stage s).map stageCode = some 0b10#2) ∧
    ((0x9#4 ≤ s.phase ∧ s.phase ≤ 0xC#4) ↔ (stage s).map stageCode = some 0b11#2) ∧
    (powerCode (power s) = 1#1 ↔ (stage s).map stageCode = some 0b10#2)

/-- The tick invariants of 10_state R31: they hold after reset with legal parameters, every whole STEP
keeps them, and no edge outside P_STEP without reset breaks them. -/
def Obligations.TickKeepsTheFlameInvariants : Prop :=
  (∀ p : Params, Legal p → TickInv (State.resetWith p)) ∧
  (∀ s t : State, TickInv s → exec .step s = .next t → TickInv t) ∧
  (∀ s t : State, TickInv s → s.phase ≠ 0x0#4 → rstNow s = false → step s = .next t → TickInv t)

/-- The invariant of every clock edge (10_state R31 between the sub-steps, 30_encoding R63, 43_power R136,
10_state R26), reset edges included. -/
def Obligations.EveryEdgeKeepsTheInvariant : Prop :=
  ∀ s t : State, Inv s → step s = .next t → Inv t

/-- The invariant holds at the default reset state; its parameters are defaults, the model's and the spec's
(logs 12, 13, 20, 26). -/
def Obligations.InvariantHoldsAtReset : Prop := Inv State.reset

/-- The invariant holds after reset for every legal choice of the parameters (10_state R33). -/
def Obligations.InvariantHoldsAtEveryLegalReset : Prop :=
  ∀ p : Params, Legal p → Inv (State.resetWith p)

/-- 60_exceptions R150 for every run, whatever the inputs: from a state within the invariant the machine
never stops, and stays within the invariant. -/
def Obligations.TheMachineNeverStops : Prop :=
  ∀ (k : Nat) (s : State), Inv s → ∃ t, runSteps k s = .next t ∧ Inv t

/-- 42_physics R110: the flame data of any number of ticks is a function of the flame data they start from
and of the parameters they use; delays, polarity, inputs and outputs play no part. -/
def Obligations.TicksAreAFunctionOfTheFlame : Prop :=
  ∀ (n : Nat) (s1 s2 : State), SameFlameParams s1.params s2.params → flame s1 = flame s2 →
    flame (ticks n s1) = flame (ticks n s2)

/-- 42_physics R110 and 10_state R34 for every run and every input sequence: whatever the button and the
wake do, a run without reset from the start of a tick holds, whenever it is not inside a tick, the flame
data of some number of whole ticks. -/
def Obligations.EveryRunIsWholeTicks : Prop :=
  ∀ (k : Nat) (s t : State), controlWord s = 0x00#7 → NoReset s k → runSteps k s = .next t →
    (t.phase ≠ 0x0#4 ∨ t.ss = 0#3) → ∃ n, n ≤ k ∧ flame t = flame (ticks n s)

/-- 41_prng R96: after `n` complete ticks the register holds `2 n` advances of its seed. -/
def Obligations.TwoAdvancesPerTick : Prop :=
  ∀ (n : Nat) (s : State), (ticks n s).rn = lfsrIterate (2 * n) s.rn

/-- 42_physics R111, with `DAMPW = 16`. Over one whole tick: on a tick count not divisible by 4 the velocity
changes by exactly minus the position; on one divisible by 4 the scaled velocity does. -/
def Obligations.DampingOnEveryFourthTickOnly : Prop :=
  ∀ s t : State, s.params.dampWidth = .w16 → exec .step s = .next t →
    (t.tickCounter.toNat % 4 ≠ 0 →
      t.velX.toInt = Int.bmod (s.velX.toInt - t.centerX.toInt) 65536 ∧
      t.velY.toInt = Int.bmod (s.velY.toInt - t.centerY.toInt) 65536) ∧
    (t.tickCounter.toNat % 4 = 0 →
      t.velX.toInt =
        Int.bmod (Int.tdiv (Int.bmod (s.velX.toInt * 999) 65536) 1000 - t.centerX.toInt) 65536 ∧
      t.velY.toInt =
        Int.bmod (Int.tdiv (Int.bmod (s.velY.toInt * 999) 65536) 1000 - t.centerY.toInt) 65536)

/-- 42_physics R112. Over one whole tick: an agitation below the minimum turns the direction up and adds
it, one above the maximum turns it down, and one between keeps the direction, also on the tick that
leaves the range. -/
def Obligations.DirectionTurnsTheTickAfter : Prop :=
  ∀ s t : State, TickInv s → exec .step s = .next t →
    (s.agitation.toNat < s.params.minUncalm →
      t.agitationDirection.toInt = s.params.uncalmInc ∧
      t.agitation.toNat = s.agitation.toNat + s.params.uncalmInc) ∧
    (s.params.maxUncalm < s.agitation.toNat →
      t.agitationDirection.toInt = -(s.params.uncalmInc : Int) ∧
      t.agitation.toNat = s.agitation.toNat - s.params.uncalmInc) ∧
    (s.params.minUncalm ≤ s.agitation.toNat → s.agitation.toNat ≤ s.params.maxUncalm →
      t.agitationDirection = s.agitationDirection)

/-- The inference 42_physics R109 (b): from the lower limit upward the agitation is a triangle wave. It
climbs in steps of UNCALMINC to one step above the upper limit, and after
`2 * ((MAXUNCALM - MINUNCALM) / UNCALMINC + 2)` ticks it is back with the same direction. -/
def Obligations.AgitationIsATriangleWave : Prop :=
  ∀ (s : State) (n : Nat), TickInv s → s.agitation.toNat = s.params.minUncalm →
    s.agitationDirection.toInt = s.params.uncalmInc →
    s.params.maxUncalm - s.params.minUncalm = n * s.params.uncalmInc →
    (∀ j ≤ n + 1, (ticks j s).agitation.toNat = s.params.minUncalm + j * s.params.uncalmInc) ∧
    (∀ j ≤ n + 2, (ticks (n + 1 + j) s).agitation.toNat =
      s.params.maxUncalm + s.params.uncalmInc - j * s.params.uncalmInc) ∧
    (ticks (2 * (n + 2)) s).agitation = s.agitation ∧
    (ticks (2 * (n + 2)) s).agitationDirection = s.agitationDirection

/-- 42_physics R113 on one axis at a time: INTEG with a poke larger than `2 * MAXDEV` and no velocity,
then CLAMP, leaves the position at exactly plus or minus MAXDEV, also where INTEG wraps. -/
def Obligations.HugePokeSaturates : Prop :=
  ∀ s t u : State, TickInv s → exec .integ s = .next t → exec .clamp t = .next u →
    (s.velX.toInt / 4 = 0 → 2 * (s.params.maxDev : Int) < |s.movX.toInt| →
      u.centerX.toInt = s.params.maxDev ∨ u.centerX.toInt = -(s.params.maxDev : Int)) ∧
    (s.velY.toInt / 4 = 0 → 2 * (s.params.maxDev : Int) < |s.movY.toInt| →
      u.centerY.toInt = s.params.maxDev ∨ u.centerY.toInt = -(s.params.maxDev : Int))

/-- The inference 42_physics R109 (g), with `DAMPW = 16`: a damping tick establishes the velocity bound
whatever the velocity was, and every edge without reset keeps it. -/
def Obligations.VelocityBoundIsKept : Prop :=
  ∀ s t : State, Inv s → s.params.dampWidth = .w16 → rstNow s = false → step s = .next t →
    (VelBound s → VelBound t) ∧
    (controlWord s = 0x05#7 → (s.tickCounter.toNat + 1) % 4 = 0 → VelBound t)

/-- The inference 42_physics R109 (g) over runs: once the bound stands, the velocity stays within
`32 + 4 * MAXDEV`, which is 432 with the reference constants. -/
def Obligations.VelocityStaysBounded : Prop :=
  ∀ (k : Nat) (s t : State), Inv s → s.params.dampWidth = .w16 → VelBound s → NoReset s k →
    runSteps k s = .next t →
    |t.velX.toInt| ≤ 32 + 4 * (s.params.maxDev : Int) ∧
    |t.velY.toInt| ≤ 32 + 4 * (s.params.maxDev : Int)
end

