-- ==== Sys2Proof/Laws/Arith.lean ====
section
/-! SUPPORT. What each arithmetic primitive computes, in integers (40_arith). -/

namespace Sys2Proof.Machine

/-- 40_arith R76: reading back what S16 stored. -/
theorem s16_toInt (z : Int) : (s16 z).toInt = Int.bmod z 65536 := by
  simp [s16, BitVec.toInt_ofInt]

/-- 40_arith R75: reading back what U16 stored. -/
theorem u16_toNat (z : Int) : ((u16 z).toNat : Int) = z % 65536 := by
  simp [u16, BitVec.toNat_ofInt]
  omega

/-- S16 changes nothing that already fits. -/
theorem s16_toInt_of_fits {z : Int} (lo : -32768 ≤ z) (hi : z ≤ 32767) : (s16 z).toInt = z := by
  rw [s16_toInt, Int.bmod_def]
  omega

/-- U16 changes nothing that already fits. -/
theorem u16_toNat_of_fits {z : Int} (lo : 0 ≤ z) (hi : z ≤ 65535) : ((u16 z).toNat : Int) = z := by
  rw [u16_toNat]
  omega

/-- The range of a signed 16-bit register. -/
theorem word_toInt_range (v : Word) : -32768 ≤ v.toInt ∧ v.toInt ≤ 32767 := by
  have lo := BitVec.le_toInt v
  have hi := BitVec.toInt_lt (x := v)
  omega

/-- 40_arith R81: the quarter, rounded toward minus infinity. -/
theorem asr2_toInt (v : Word) : (asr2 v).toInt = v.toInt / 4 := by
  simp [asr2, BitVec.toInt_sshiftRight, Int.shiftRight_eq_div_pow]

/-- 40_arith R80. -/
theorem lsr_toNat (v : Word) (n : Nat) : (lsr v n).toNat = v.toNat / 2 ^ n := by
  simp [lsr, Nat.shiftRight_eq_div_pow]

/-- 40_arith R83: the high half of the exact product. -/
theorem highHalf_umul32_toNat (a b : Word) :
    (highHalf (umul32 a b)).toNat = a.toNat * b.toNat / 65536 := by
  have ha := a.isLt
  have hb := b.isLt
  have hab : a.toNat * b.toNat < 2 ^ 32 :=
    lt_of_le_of_lt (Nat.mul_le_mul (Nat.le_of_lt_succ ha) (Nat.le_of_lt_succ hb)) (by norm_num)
  have h1 : a.toNat % 2 ^ 32 = a.toNat := Nat.mod_eq_of_lt (by omega)
  have h2 : b.toNat % 2 ^ 32 = b.toNat := Nat.mod_eq_of_lt (by omega)
  simp only [highHalf, umul32, BitVec.extractLsb'_toNat, BitVec.toNat_mul, BitVec.toNat_setWidth,
    Nat.shiftRight_eq_div_pow]
  rw [h1, h2, Nat.mod_eq_of_lt hab]
  exact Nat.mod_eq_of_lt (by omega)

/-- 40_arith R87: the duty of a position, modulo 256. -/
theorem dutyOf_toNat (c : Word) : ((dutyOf c).toNat : Int) = (155 + c.toInt) % 256 := by
  simp [dutyOf, low8, Config.dutyMid, BitVec.toNat_ofInt]
  omega

/-- The duty of a position within 100 is 155 plus the position. -/
theorem dutyOf_toNat_of_fits {c : Word} (lo : -100 ≤ c.toInt) (hi : c.toInt ≤ 100) :
    ((dutyOf c).toNat : Int) = 155 + c.toInt := by
  rw [dutyOf_toNat]
  omega

/-- 42_physics R105: saturation. -/
theorem clampAxis_toInt {m : Nat} (hm : m ≤ 100) (c : Word) :
    (clampAxis m c).toInt = max (-(m : Int)) (min (m : Int) c.toInt) := by
  unfold clampAxis
  split
  · rw [s16_toInt_of_fits (by omega) (by omega)]
    omega
  · split
    · rw [s16_toInt_of_fits (by omega) (by omega)]
      omega
    · omega

/-- Truncated division by 1000 as two floor divisions, so that linear arithmetic can use it. -/
theorem sdivt_cases (p : Int) :
    (0 ≤ p ∧ sdivt p = p / 1000) ∨ (p < 0 ∧ sdivt p = -((-p) / 1000)) := by
  unfold sdivt Config.dampDen
  rcases Int.lt_or_le p 0 with h | h
  · refine .inr ⟨h, ?_⟩
    have hneg := Int.neg_tdiv (a := -p) (b := 1000)
    rw [neg_neg] at hneg
    rw [hneg, Int.tdiv_eq_ediv_of_nonneg (by omega)]
  · exact .inl ⟨h, Int.tdiv_eq_ediv_of_nonneg h⟩

/-- 42_physics R106 at the rule's width: the scaled velocity, and its bound. -/
theorem dampAxis_w16 (v : Word) :
    (dampAxis .w16 v).toInt = Int.tdiv (Int.bmod (v.toInt * 999) 65536) 1000 ∧
      |(dampAxis .w16 v).toInt| ≤ 32 := by
  have hp : dampProduct .w16 v = Int.bmod (v.toInt * 999) 65536 := by
    simp [dampProduct, smul16, s16_toInt, Config.dampNum]
  have hr := word_toInt_range (smul16 v)
  have hb : (smul16 v).toInt = Int.bmod (v.toInt * 999) 65536 := by
    simp [smul16, s16_toInt, Config.dampNum]
  have hs := sdivt_cases (Int.bmod (v.toInt * 999) 65536)
  have hfit : -32 ≤ sdivt (Int.bmod (v.toInt * 999) 65536) ∧
      sdivt (Int.bmod (v.toInt * 999) 65536) ≤ 32 := by
    rw [hb] at hr
    omega
  have hval : (dampAxis .w16 v).toInt = sdivt (Int.bmod (v.toInt * 999) 65536) := by
    rw [dampAxis, hp, s16_toInt_of_fits (by omega) (by omega)]
  exact ⟨hval, by rw [hval, abs_le]; exact hfit⟩

/-- The alternative width of 40_arith R84: an exact product. -/
theorem dampAxis_w32 (v : Word) :
    (dampAxis .w32 v).toInt = Int.tdiv (v.toInt * 999) 1000 := by
  have hr := word_toInt_range v
  have hs := sdivt_cases (v.toInt * 999)
  have : dampAxis .w32 v = s16 (sdivt (v.toInt * 999)) := rfl
  rw [this, s16_toInt_of_fits (by omega) (by omega)]
  rfl

/-- 42_physics R106: the damping count is one divisible by 4. -/
theorem dampingDue_iff (t : Byte) : dampingDue t = true ↔ t.toNat % 4 = 0 := by
  simp only [dampingDue, beq_iff_eq, ← BitVec.toNat_inj, BitVec.extractLsb'_toNat]
  simp

/-- 41_prng R91: the value a draw returns, from the register it leaves. -/
theorem nextBounded_value_toNat (m rn : Word) :
    (nextBounded m rn).value.toNat = m.toNat * (nextBounded m rn).rn.toNat / 65536 :=
  highHalf_umul32_toNat m (lfsrNext rn)

/-- 30_encoding R61: the bound of a draw. -/
theorem drawBound_toNat (s : State) : (drawBound s).toNat = s.agitation.toNat / 256 := by
  simp [drawBound, lsr_toNat]

/-- 30_encoding R61: the offset taken from a draw. -/
theorem drawOffset_toNat (s : State) : (drawOffset s).toNat = s.agitation.toNat / 512 := by
  simp [drawOffset, lsr_toNat]

/-- 42_physics R103: everything the direction of this tick can be. -/
theorem nextDirection_cases {s : State} (h : buildLegal s.params) :
    (s.params.maxUncalm < s.agitation.toNat ∧
        (nextDirection s).toInt = -(s.params.uncalmInc : Int)) ∨
      (s.agitation.toNat < s.params.minUncalm ∧ (nextDirection s).toInt = s.params.uncalmInc) ∨
      (s.params.minUncalm ≤ s.agitation.toNat ∧ s.agitation.toNat ≤ s.params.maxUncalm ∧
        nextDirection s = s.agitationDirection) := by
  obtain ⟨h1, h2, h3, h4, -⟩ := h
  unfold nextDirection aboveMax belowMin
  by_cases ha : s.params.maxUncalm < s.agitation.toNat
  · exact .inl ⟨ha, by rw [if_pos (by simpa using ha), s16_toInt_of_fits (by omega) (by omega)]⟩
  · by_cases hb : s.agitation.toNat < s.params.minUncalm
    · refine .inr (.inl ⟨hb, ?_⟩)
      rw [if_neg (by simpa using ha), if_pos (by simpa using hb),
        s16_toInt_of_fits (by omega) (by omega)]
    · exact .inr (.inr ⟨by omega, by omega,
        by rw [if_neg (by simpa using ha), if_neg (by simpa using hb)]⟩)

end Sys2Proof.Machine
end

