-- ==== Sys2Proof/Laws/State.lean ====
section
/-! SUPPORT. One lemma per field for each update of the state that the shared operations make. -/

namespace Sys2Proof.Machine

section Enter

variable (p : Phase) (s : State)

@[simp] theorem enter_rn : (enter p s).rn = s.rn := rfl
@[simp] theorem enter_centerX : (enter p s).centerX = s.centerX := rfl
@[simp] theorem enter_centerY : (enter p s).centerY = s.centerY := rfl
@[simp] theorem enter_velX : (enter p s).velX = s.velX := rfl
@[simp] theorem enter_velY : (enter p s).velY = s.velY := rfl
@[simp] theorem enter_agitation : (enter p s).agitation = s.agitation := rfl
@[simp] theorem enter_agitationDirection :
    (enter p s).agitationDirection = s.agitationDirection := rfl
@[simp] theorem enter_tickCounter : (enter p s).tickCounter = s.tickCounter := rfl
@[simp] theorem enter_movX : (enter p s).movX = s.movX := rfl
@[simp] theorem enter_movY : (enter p s).movY = s.movY := rfl
@[simp] theorem enter_phase : (enter p s).phase = phaseCode p := rfl
@[simp] theorem enter_ss : (enter p s).ss = 0#3 := rfl
@[simp] theorem enter_dly : (enter p s).dly = dlyLoad s.params p := rfl
@[simp] theorem enter_outEn : (enter p s).outEn = s.outEn := rfl
@[simp] theorem enter_drvOn : (enter p s).drvOn = s.drvOn := rfl
@[simp] theorem enter_dutyA : (enter p s).dutyA = s.dutyA := rfl
@[simp] theorem enter_dutyB : (enter p s).dutyB = s.dutyB := rfl
@[simp] theorem enter_params : (enter p s).params = s.params := rfl
@[simp] theorem enter_inputs : (enter p s).inputs = s.inputs := rfl
@[simp] theorem enter_edge : (enter p s).edge = s.edge := rfl
@[simp] theorem enter_drawn : (enter p s).drawn = s.drawn := rfl
@[simp] theorem enter_flame : flame (enter p s) = flame s := rfl

end Enter

section ClockEdge

variable (s : State)

@[simp] theorem clockEdge_rn : (clockEdge s).rn = s.rn := rfl
@[simp] theorem clockEdge_centerX : (clockEdge s).centerX = s.centerX := rfl
@[simp] theorem clockEdge_centerY : (clockEdge s).centerY = s.centerY := rfl
@[simp] theorem clockEdge_velX : (clockEdge s).velX = s.velX := rfl
@[simp] theorem clockEdge_velY : (clockEdge s).velY = s.velY := rfl
@[simp] theorem clockEdge_agitation : (clockEdge s).agitation = s.agitation := rfl
@[simp] theorem clockEdge_agitationDirection :
    (clockEdge s).agitationDirection = s.agitationDirection := rfl
@[simp] theorem clockEdge_tickCounter : (clockEdge s).tickCounter = s.tickCounter := rfl
@[simp] theorem clockEdge_movX : (clockEdge s).movX = s.movX := rfl
@[simp] theorem clockEdge_movY : (clockEdge s).movY = s.movY := rfl
@[simp] theorem clockEdge_phase : (clockEdge s).phase = s.phase := rfl
@[simp] theorem clockEdge_ss : (clockEdge s).ss = s.ss := rfl
@[simp] theorem clockEdge_dly : (clockEdge s).dly = s.dly := rfl
@[simp] theorem clockEdge_outEn : (clockEdge s).outEn = s.outEn := rfl
@[simp] theorem clockEdge_drvOn : (clockEdge s).drvOn = s.drvOn := rfl
@[simp] theorem clockEdge_dutyA : (clockEdge s).dutyA = s.dutyA := rfl
@[simp] theorem clockEdge_dutyB : (clockEdge s).dutyB = s.dutyB := rfl
@[simp] theorem clockEdge_params : (clockEdge s).params = s.params := rfl
@[simp] theorem clockEdge_inputs : (clockEdge s).inputs = s.inputs.tail := rfl
@[simp] theorem clockEdge_edge : (clockEdge s).edge = s.edge + 1 := rfl
@[simp] theorem clockEdge_drawn : (clockEdge s).drawn = s.drawn := rfl
@[simp] theorem clockEdge_flame : flame (clockEdge s) = flame s := rfl

end ClockEdge

section AfterEdges

variable (k : Nat) (s : State)

@[simp] theorem afterEdges_phase : (afterEdges k s).phase = s.phase := rfl
@[simp] theorem afterEdges_ss : (afterEdges k s).ss = s.ss := rfl
@[simp] theorem afterEdges_dly : (afterEdges k s).dly = s.dly := rfl
@[simp] theorem afterEdges_outEn : (afterEdges k s).outEn = s.outEn := rfl
@[simp] theorem afterEdges_drvOn : (afterEdges k s).drvOn = s.drvOn := rfl
@[simp] theorem afterEdges_params : (afterEdges k s).params = s.params := rfl
@[simp] theorem afterEdges_inputs : (afterEdges k s).inputs = s.inputs.drop k := rfl
@[simp] theorem afterEdges_edge : (afterEdges k s).edge = s.edge + k := rfl
@[simp] theorem afterEdges_flame : flame (afterEdges k s) = flame s := rfl

end AfterEdges

section TakeReset

variable (s : State)

@[simp] theorem takeReset_params : (takeReset s).params = s.params := rfl
@[simp] theorem takeReset_inputs : (takeReset s).inputs = s.inputs.tail := rfl
@[simp] theorem takeReset_edge : (takeReset s).edge = s.edge + 1 := rfl
@[simp] theorem takeReset_phase : (takeReset s).phase = 0x0#4 := rfl
@[simp] theorem takeReset_ss : (takeReset s).ss = 0#3 := rfl
@[simp] theorem takeReset_flame : flame (takeReset s) = flame (State.resetWith s.params) := rfl

end TakeReset

section SubStepsUnderEdges

variable (k : Nat) (s : State)

theorem drawX_afterEdges : drawX (afterEdges k s) = afterEdges k (drawX s) := rfl
theorem drawY_afterEdges : drawY (afterEdges k s) = afterEdges k (drawY s) := rfl
theorem agitate_afterEdges : agitate (afterEdges k s) = afterEdges k (agitate s) := rfl
theorem integPosition_afterEdges :
    integPosition (afterEdges k s) = afterEdges k (integPosition s) := rfl
theorem clampPosition_afterEdges :
    clampPosition (afterEdges k s) = afterEdges k (clampPosition s) := rfl
theorem dampVelocity_afterEdges :
    dampVelocity (afterEdges k s) = afterEdges k (dampVelocity s) := rfl
theorem springForce_afterEdges : springForce (afterEdges k s) = afterEdges k (springForce s) := rfl
theorem emitDuty_afterEdges : emitDuty (afterEdges k s) = afterEdges k (emitDuty s) := rfl
theorem enter_afterEdges (p : Phase) : enter p (afterEdges k s) = afterEdges k (enter p s) := rfl

end SubStepsUnderEdges

section WholeTick

variable (s : State)

@[simp] theorem wholeTick_params : (wholeTick s).params = s.params := rfl
@[simp] theorem wholeTick_phase : (wholeTick s).phase = 0x1#4 := rfl
@[simp] theorem wholeTick_ss : (wholeTick s).ss = 0#3 := rfl
@[simp] theorem wholeTick_dly : (wholeTick s).dly = 0 := rfl
@[simp] theorem wholeTick_outEn : (wholeTick s).outEn = s.outEn := rfl
@[simp] theorem wholeTick_drvOn : (wholeTick s).drvOn = s.drvOn := rfl
@[simp] theorem wholeTick_inputs : (wholeTick s).inputs = s.inputs := rfl
@[simp] theorem wholeTick_edge : (wholeTick s).edge = s.edge := rfl
@[simp] theorem wholeTick_agitation : (wholeTick s).agitation = (agitate s).agitation := rfl
@[simp] theorem wholeTick_agitationDirection :
    (wholeTick s).agitationDirection = nextDirection s := rfl
@[simp] theorem wholeTick_rn : (wholeTick s).rn = lfsrNext (lfsrNext s.rn) := rfl

end WholeTick

end Sys2Proof.Machine
end

