-- ==== Sys2Proof/Laws/Ops.lean ====
section
/-! SUPPORT. What each shared operation can do, said once: the counting and waiting phases, the input
sequence, decoding, the clock edge and runs. -/

namespace Sys2Proof.Machine

/-- Everything a counting step can do (43_power R124). -/
theorem countDown_cases (p : Phase) (s : State) :
    (s.dly = 0 ∧ countDown p s = enter p s) ∨
      (s.dly ≠ 0 ∧ countDown p s = { s with dly := s.dly - 1 }) := by
  unfold countDown
  split
  · exact .inl ⟨‹_›, rfl⟩
  · exact .inr ⟨‹_›, rfl⟩

/-- Everything a release wait can do (43_power R128). -/
theorem awaitRelease_cases (p : Phase) (s : State) :
    (pressed s = true ∧ awaitRelease p s = s) ∨
      (pressed s = false ∧ awaitRelease p s = enter p s) := by
  cases h : pressed s <;> simp [awaitRelease, h]

/-- Taking the wake is entering P_OUTON and nothing else (60_exceptions R154). -/
theorem takeWake_eq (s : State) :
    takeWake s = { s with phase := 0x9#4, ss := 0#3, dly := 0 } := rfl

/-- The next edge reads the next input levels. -/
theorem inputAt_clockEdge (s : State) (k : Nat) : inputAt (clockEdge s) k = inputAt s (k + 1) := by
  have hidx : s.inputs.tail[k]? = s.inputs[k + 1]? := by cases s.inputs <;> simp
  simp [inputAt, clockEdge, hidx, Nat.add_assoc, Nat.add_comm 1 k]

/-- After `k` edges the input sequence stands `k` further on. -/
theorem inputAt_afterEdges (s : State) (k j : Nat) :
    inputAt (afterEdges k s) j = inputAt s (k + j) := by
  simp [inputAt, afterEdges, Nat.add_assoc]

/-- One edge that changes no register. -/
theorem clockEdge_eq_afterEdges (s : State) : clockEdge s = afterEdges 1 s := by
  simp [clockEdge, afterEdges]

/-- Edges that change no register add up. -/
theorem afterEdges_afterEdges (s : State) (j k : Nat) :
    afterEdges k (afterEdges j s) = afterEdges (j + k) s := by
  simp [afterEdges, Nat.add_assoc]

/-- The twenty control words as rows of operation, phase and sub-step (30_encoding R58). -/
def selectionTable : List (Instr × BitVec 4 × BitVec 3) :=
  [(.drawx, 0#4, 0#3), (.drawy, 0#4, 1#3), (.agit, 0#4, 2#3),
    (.integ, 0#4, 3#3), (.clamp, 0#4, 4#3), (.damp, 0#4, 5#3),
    (.spring, 0#4, 6#3), (.emit, 0#4, 7#3), (.poll, 1#4, 0#3),
    (.delay, 2#4, 0#3), (.outoff, 3#4, 0#3), (.drvoff, 4#4, 0#3),
    (.db1, 5#4, 0#3), (.rel1, 6#4, 0#3), (.db2, 7#4, 0#3),
    (.sleep, 8#4, 0#3), (.outon, 9#4, 0#3), (.drvon, 10#4, 0#3),
    (.db3, 11#4, 0#3), (.rel2, 12#4, 0#3)]

/-- Whatever a pair of phase and sub-step decodes to stands in the table with that pair. -/
theorem selected_table : ∀ (p : BitVec 4) (ss : BitVec 3),
    ∀ i ∈ (decode (packWord p ss)).toOption.toList, (i, p, ss) ∈ selectionTable := by
  decide

/-- Which operation a control word selects, with the phase and sub-step it stands in
(30_encoding R58). -/
theorem selected_cases {p : BitVec 4} {ss : BitVec 3} {i : Instr}
    (h : decode (packWord p ss) = .ok i) :
    (i = .drawx ∧ p = 0#4 ∧ ss = 0#3) ∨
    (i = .drawy ∧ p = 0#4 ∧ ss = 1#3) ∨
    (i = .agit ∧ p = 0#4 ∧ ss = 2#3) ∨
    (i = .integ ∧ p = 0#4 ∧ ss = 3#3) ∨
    (i = .clamp ∧ p = 0#4 ∧ ss = 4#3) ∨
    (i = .damp ∧ p = 0#4 ∧ ss = 5#3) ∨
    (i = .spring ∧ p = 0#4 ∧ ss = 6#3) ∨
    (i = .emit ∧ p = 0#4 ∧ ss = 7#3) ∨
    (i = .poll ∧ p = 1#4 ∧ ss = 0#3) ∨
    (i = .delay ∧ p = 2#4 ∧ ss = 0#3) ∨
    (i = .outoff ∧ p = 3#4 ∧ ss = 0#3) ∨
    (i = .drvoff ∧ p = 4#4 ∧ ss = 0#3) ∨
    (i = .db1 ∧ p = 5#4 ∧ ss = 0#3) ∨
    (i = .rel1 ∧ p = 6#4 ∧ ss = 0#3) ∨
    (i = .db2 ∧ p = 7#4 ∧ ss = 0#3) ∨
    (i = .sleep ∧ p = 8#4 ∧ ss = 0#3) ∨
    (i = .outon ∧ p = 9#4 ∧ ss = 0#3) ∨
    (i = .drvon ∧ p = 10#4 ∧ ss = 0#3) ∨
    (i = .db3 ∧ p = 11#4 ∧ ss = 0#3) ∨
    (i = .rel2 ∧ p = 12#4 ∧ ss = 0#3) := by
  have ht := selected_table p ss i (by simp [h, Except.toOption])
  simpa [selectionTable] using ht

/-- A listed pair of phase and sub-step decodes (30_encoding R63). -/
theorem listed_table : ∀ (p : BitVec 4) (ss : BitVec 3), p.toNat ≤ 12 → p = 0#4 ∨ ss = 0#3 →
    (decode (packWord p ss)).toOption.isSome = true := by
  decide

/-- A listed control word selects an operation (30_encoding R63). -/
theorem listed_decodes {s : State} (h : Listed s) : ∃ i, decode (controlWord s) = .ok i := by
  have ht := listed_table s.phase s.ss h.1 h.2
  unfold controlWord
  match hd : decode (packWord s.phase s.ss) with
  | .ok i => exact ⟨i, rfl⟩
  | .error e => simp [hd, Except.toOption] at ht

/-- Every operation has a next state: no meaning stops (60_exceptions R150). -/
theorem exec_next (i : Instr) (s : State) : ∃ t, exec i s = .next t := by
  cases i <;> exact ⟨_, rfl⟩

/-- Everything a clock edge with a next state can be: a reset, or the selected operation. -/
theorem step_cases {s t : State} (h : step s = .next t) :
    Legal s.params ∧ ∃ i, decode (controlWord s) = .ok i ∧
      ((rstNow s = true ∧ t = takeReset s) ∨
        (rstNow s = false ∧ ∃ u, exec i s = .next u ∧ t = clockEdge u)) := by
  unfold step at h
  split at h
  · refine ⟨‹_›, ?_⟩
    split at h
    · cases h
    · rename_i i hd
      refine ⟨i, hd, ?_⟩
      obtain ⟨u, hu⟩ := exec_next i s
      cases hr : rstNow s with
      | true => exact .inl ⟨rfl, by simpa [hr] using h.symm⟩
      | false => exact .inr ⟨rfl, u, hu, by simpa [hr, hu, finishEdge] using h.symm⟩
  · cases h

/-- An edge without reset, from the operation it selects. -/
theorem step_of_decode {s u : State} {i : Instr} (hl : Legal s.params)
    (hd : decode (controlWord s) = .ok i) (hr : rstNow s = false) (hx : exec i s = .next u) :
    step s = .next (clockEdge u) := by
  simp [step, hl, hd, hr, hx, finishEdge]

/-- No edges. -/
@[simp] theorem runSteps_zero (s : State) : runSteps 0 s = .next s := rfl

/-- One edge more, at the front. -/
theorem runSteps_succ {s t : State} (k : Nat) (h : step s = .next t) :
    runSteps (k + 1) s = runSteps k t := by
  show Host.Core.run Sys2Proof.core (k + 1) s = _
  have hc : Sys2Proof.core.step s = .next t := h
  simp only [Host.Core.run, hc]
  rfl

/-- A run splits at any edge. -/
theorem runSteps_add {s t : State} {j : Nat} (k : Nat) (h : runSteps j s = .next t) :
    runSteps (j + k) s = runSteps k t := by
  induction j generalizing s with
  | zero =>
    cases h
    simp
  | succ j ih =>
    match hs : step s with
    | .next u =>
      rw [runSteps_succ j hs] at h
      rw [Nat.add_right_comm, runSteps_succ _ hs, ih h]
    | .fault f =>
      exact absurd h (by
        have hc : Sys2Proof.core.step s = .fault f := hs
        simp [runSteps, Host.Core.run, hc])
    | .refused r =>
      exact absurd h (by
        have hc : Sys2Proof.core.step s = .refused r := hs
        simp [runSteps, Host.Core.run, hc])

/-- A run of `k + 1` edges with a next state begins with an edge that has one. -/
theorem runSteps_succ_cases {s t : State} {k : Nat} (h : runSteps (k + 1) s = .next t) :
    ∃ u, step s = .next u ∧ runSteps k u = .next t := by
  match hs : step s with
  | .next u => exact ⟨u, rfl, by rw [← h, runSteps_succ k hs]⟩
  | .fault f =>
    exact absurd h (by
      have hc : Sys2Proof.core.step s = .fault f := hs
      simp [runSteps, Host.Core.run, hc])
  | .refused r =>
    exact absurd h (by
      have hc : Sys2Proof.core.step s = .refused r := hs
      simp [runSteps, Host.Core.run, hc])

end Sys2Proof.Machine
end

