-- ==== Sys2Proof/Laws/PerInstr.lean ====
section
/-! SUPPORT. The statement made once per operation: an operation is well formed exactly when the encoder
gives it a control word (30_encoding R58, R59). -/

namespace Sys2Proof.Laws.HasWord

/-- An operation is well formed exactly when it has a control word. -/
def Statement (i : Instr) : Prop := i.wellFormed = true ↔ (encode i).isSome = true

theorem drawx : Statement .drawx := by unfold Statement; decide
theorem drawy : Statement .drawy := by unfold Statement; decide
theorem agit : Statement .agit := by unfold Statement; decide
theorem integ : Statement .integ := by unfold Statement; decide
theorem clamp : Statement .clamp := by unfold Statement; decide
theorem damp : Statement .damp := by unfold Statement; decide
theorem spring : Statement .spring := by unfold Statement; decide
theorem emit : Statement .emit := by unfold Statement; decide
theorem poll : Statement .poll := by unfold Statement; decide
theorem delay : Statement .delay := by unfold Statement; decide
theorem outoff : Statement .outoff := by unfold Statement; decide
theorem drvoff : Statement .drvoff := by unfold Statement; decide
theorem db1 : Statement .db1 := by unfold Statement; decide
theorem rel1 : Statement .rel1 := by unfold Statement; decide
theorem db2 : Statement .db2 := by unfold Statement; decide
theorem sleep : Statement .sleep := by unfold Statement; decide
theorem outon : Statement .outon := by unfold Statement; decide
theorem drvon : Statement .drvon := by unfold Statement; decide
theorem db3 : Statement .db3 := by unfold Statement; decide
theorem rel2 : Statement .rel2 := by unfold Statement; decide
theorem lfsrAdv : Statement .lfsrAdv := by unfold Statement; decide
theorem nextb (m : Word) : Statement (.nextb m) := by simp [Statement, Instr.wellFormed, Instr.format, encode]
theorem step : Statement .step := by unfold Statement; decide

end Sys2Proof.Laws.HasWord
end

