-- ==== Sys2Proof/Tests/Slice0.lean ====
section
/-! SUPPORT. Small tests of the model: the well-formedness smoke, the control words written out from the
table of 30_encoding R58, one-step vectors of 95_test_vectors, and for every obligation with hypotheses a
state that meets them. -/

namespace Sys2Proof.Tests

open Sys2Proof Sys2Proof.Machine

/-! ## Helpers -/

/-- A step answered a next state that passes the check. -/
def got (o : Host.Outcome State Fault Refusal) (check : State → Bool) : Bool :=
  match o with
  | .next t => check t
  | .fault _ => false
  | .refused _ => false

/-- What `got` says, as a statement. -/
theorem next_of_got {o : Host.Outcome State Fault Refusal} {check : State → Bool}
    (h : got o check = true) : ∃ t, o = .next t ∧ check t = true := by
  unfold got at h
  split at h
  · exact ⟨_, rfl, h⟩
  · cases h
  · cases h

/-- Input levels without reset. -/
def levels (btn wake : Bool) : Inputs := ⟨false, btn, wake⟩

/-- The default reset state with `n` quiet edges ahead: no reset, not pressed, no wake. -/
def quiet (n : Nat) : State := { State.reset with inputs := List.replicate n (levels false false) }

/-- The default reset state with a control word in the sequencer and one edge's levels ahead. -/
def atWord (w : ControlWord) (now : Inputs) : State :=
  { State.reset with phase := phaseBits w, ss := subStepBits w, inputs := [now] }

/-- A word of an integer, for vectors written in decimal. -/
def num (z : Int) : Word := BitVec.ofInt 16 z

/-! ## Well-formedness and configuration checks -/

/-- 30_encoding R59: the function and pseudo rows have no control word. -/
theorem test_wellFormed_refuses :
    Instr.wellFormed .lfsrAdv = false ∧ Instr.wellFormed (.nextb 20#16) = false ∧
      Instr.wellFormed .step = false ∧ Instr.wellFormed .drawx = true := by decide

/-- 00_scope R7: each constraint refuses a configuration that breaks it alone. -/
theorem test_buildLegal_refuses :
    buildLegal Config.default ∧
    ¬ buildLegal { Config.default with minUncalm := 30721 } ∧
    ¬ buildLegal { Config.default with uncalmInc := 0 } ∧
    ¬ buildLegal { Config.default with uncalmInc := 5121 } ∧
    ¬ buildLegal { Config.default with maxUncalm := 65526 } ∧
    ¬ buildLegal { Config.default with maxDev := 101 } := by decide

/-- 10_state R33: each condition refuses a reset record that breaks it alone. -/
theorem test_resetLegal_refuses :
    resetLegal Config.default ∧
    ¬ resetLegal { Config.default with rstCenterX := 101#16 } ∧
    ¬ resetLegal { Config.default with rstCenterY := num (-101) } ∧
    ¬ resetLegal { Config.default with rstAgitation := 5109#16 } ∧
    ¬ resetLegal { Config.default with rstAgitation := 30731#16 } ∧
    ¬ resetLegal { Config.default with rstDir := 0#16 } ∧
    resetLegal { Config.default with seed := 0#16, rstDir := num (-10) } := by decide

/-! ## Control words (30_encoding R58, R63) -/

theorem test_decode_physics :
    decode 0b0000000#7 = .ok .drawx ∧ decode 0b0000001#7 = .ok .drawy ∧
    decode 0b0000010#7 = .ok .agit ∧ decode 0b0000011#7 = .ok .integ ∧
    decode 0b0000100#7 = .ok .clamp ∧ decode 0b0000101#7 = .ok .damp ∧
    decode 0b0000110#7 = .ok .spring ∧ decode 0b0000111#7 = .ok .emit :=
  ⟨rfl, rfl, rfl, rfl, rfl, rfl, rfl, rfl⟩

theorem test_decode_loop_and_suspend :
    decode 0b0001000#7 = .ok .poll ∧ decode 0b0010000#7 = .ok .delay ∧
    decode 0b0011000#7 = .ok .outoff ∧ decode 0b0100000#7 = .ok .drvoff ∧
    decode 0b0101000#7 = .ok .db1 ∧ decode 0b0110000#7 = .ok .rel1 ∧
    decode 0b0111000#7 = .ok .db2 ∧ decode 0b1000000#7 = .ok .sleep :=
  ⟨rfl, rfl, rfl, rfl, rfl, rfl, rfl, rfl⟩

theorem test_decode_resume :
    decode 0b1001000#7 = .ok .outon ∧ decode 0b1010000#7 = .ok .drvon ∧
    decode 0b1011000#7 = .ok .db3 ∧ decode 0b1100000#7 = .ok .rel2 :=
  ⟨rfl, rfl, rfl, rfl⟩

theorem test_decode_rejects :
    decode 0b0001001#7 = .error .straySubStep ∧ decode 0b1100111#7 = .error .straySubStep ∧
    decode 0b1101000#7 = .error .reservedPhase ∧ decode 0b1111111#7 = .error .reservedPhase :=
  ⟨rfl, rfl, rfl, rfl⟩

theorem test_encode_words :
    encode .damp = some 0x05#7 ∧ encode .sleep = some 0x40#7 ∧ encode .rel2 = some 0x60#7 ∧
      encode .step = none := by decide

theorem test_decodeTableWord :
    decodeTableWord 8 0x58 = some .db3 ∧ decodeTableWord 8 0x87 = some .emit ∧
      decodeTableWord 7 0x10 = some .delay ∧ decodeTableWord 8 0x68 = none := by decide

/-! ## One operation at a time -/

/-- 95_test_vectors 3.1. -/
theorem test_lfsrAdv_single_steps :
    lfsrNext 0x0001#16 = 0xB400#16 ∧ lfsrNext 0x6801#16 = 0x8000#16 ∧
      lfsrNext 0xACE1#16 = 0xE270#16 ∧ lfsrNext 0xAAAA#16 = 0x5555#16 := by decide

/-- 41_prng R91: the source's example. -/
theorem test_nextb_source_example :
    got (exec (.nextb 20#16) State.reset)
      (fun t => t.rn == 0xB400#16 && t.drawn == 14#16) = true := by decide

/-- 41_prng R91, corner case (d). -/
theorem test_nextb_largest_return :
    got (exec (.nextb 65535#16) { State.reset with rn := 0x97FF#16 })
      (fun t => t.rn == 0xFFFF#16 && t.drawn == 65534#16) = true := by decide

/-- 95_test_vectors 4.1, first row. -/
theorem test_drawx_source_example :
    got (exec .drawx State.reset)
      (fun t => t.rn == 0xB400#16 && t.movX == 4#16 && t.movY == 0#16 && t.ss == 1#3) = true := by decide

/-- 95_test_vectors 4.1: the zero register. -/
theorem test_drawx_zero_register :
    got (exec .drawx { State.reset with rn := 0#16, agitation := 30730#16 })
      (fun t => t.rn == 0#16 && t.movX == num (-60)) = true := by decide

/-- 95_test_vectors 4.1, second row. -/
theorem test_drawy_source_example :
    got (exec .drawy { State.reset with rn := 0xB400#16 })
      (fun t => t.rn == 0x5A00#16 && t.movY == num (-3) && t.movX == 0#16 && t.ss == 2#3) = true := by
  decide

/-- 95_test_vectors 4.1, last row: the largest poke. -/
theorem test_drawy_largest_poke :
    got (exec .drawy { State.reset with rn := 0x97FF#16, agitation := 65535#16 })
      (fun t => t.movY == 127#16) = true := by decide

/-- 95_test_vectors 4.2: equal is not below. -/
theorem test_agit_equal_is_not_below :
    got (exec .agit { State.reset with agitationDirection := num (-10) })
      (fun t => t.agitation == 5110#16 && t.agitationDirection == num (-10)) = true := by decide

/-- 95_test_vectors 4.2: above the maximum turns down. -/
theorem test_agit_turns_down :
    got (exec .agit { State.reset with agitation := 30730#16 })
      (fun t => t.agitation == 30720#16 && t.agitationDirection == num (-10)) = true := by decide

/-- 95_test_vectors 4.3: the quarter of -5 is -2; X and Y do not mix. -/
theorem test_integ_rounds_down :
    got (exec .integ { State.reset with velX := num (-5), centerY := num (-19), movY := num (-10), velY := 34#16 })
      (fun t => t.centerX == num (-2) && t.centerY == num (-21)) = true := by decide

/-- 95_test_vectors 4.3: an engineered poke wraps. -/
theorem test_integ_wraps :
    got (exec .integ { State.reset with centerX := 100#16, movX := 32767#16 })
      (fun t => t.centerX == num (-32669)) = true := by decide

/-- 95_test_vectors 4.4. -/
theorem test_clamp_saturates :
    got (exec .clamp { State.reset with centerX := num (-32669), centerY := 101#16 })
      (fun t => t.centerX == num (-100) && t.centerY == 100#16) = true := by decide

/-- 95_test_vectors 4.4: a value in range stays. -/
theorem test_clamp_keeps :
    got (exec .clamp { State.reset with centerX := num (-99), centerY := 100#16 })
      (fun t => t.centerX == num (-99) && t.centerY == 100#16) = true := by decide

/-- 95_test_vectors 4.8, tick 4: the product of 34 wraps. -/
theorem test_damp_product_wraps :
    got (exec .damp { State.reset with tickCounter := 3#8, velX := 14#16, velY := 34#16 })
      (fun t => t.tickCounter == 4#8 && t.velX == 13#16 && t.velY == num (-31)) = true := by decide

/-- 95_test_vectors 4.5: the counter wraps to 0, which damps, and 1 does not. -/
theorem test_damp_counter_wraps :
    got (exec .damp { State.reset with tickCounter := 255#8, velX := num (-208), velY := 65#16 })
      (fun t => t.tickCounter == 0#8 && t.velX == num (-11) && t.velY == 0#16) = true ∧
    got (exec .damp { State.reset with velX := 400#16 })
      (fun t => t.tickCounter == 1#8 && t.velX == 400#16) = true := by decide

/-- 95_test_vectors 4.6. -/
theorem test_spring_subtracts :
    got (exec .spring { State.reset with velX := 13#16, centerX := num (-21), velY := num (-32768), centerY := 100#16 })
      (fun t => t.velX == 34#16 && t.velY == 32668#16) = true := by decide

/-- 95_test_vectors 4.7. -/
theorem test_emit_duties :
    got (exec .emit { State.reset with centerX := 100#16, centerY := num (-100) })
      (fun t => t.dutyA == 255#8 && t.dutyB == 55#8 && t.phase == 0x1#4 && t.ss == 0#3) = true := by decide

/-- 95_test_vectors 4.8, tick 1 as one operation. -/
theorem test_step_first_tick :
    got (exec .step State.reset)
      (fun t => t.rn == 0x5A00#16 && t.agitation == 5130#16 && t.velX == num (-4) && t.velY == 3#16 &&
        t.dutyA == 159#8 && t.dutyB == 152#8) = true := by decide

/-- 95_test_vectors section 5: tick 4 with the exact product. -/
theorem test_step_exact_product :
    got (exec .step { State.reset with
        rn := 0x05A0#16, centerX := num (-14), centerY := num (-19), velX := 14#16, velY := 34#16,
        agitation := 5150#16, tickCounter := 3#8, params := { Config.default with dampWidth := .w32 } })
      (fun t => t.velX == 34#16 && t.velY == 54#16 && t.rn == 0x0168#16) = true := by decide

/-- 95_test_vectors 6.1: the branch of POLL, with both polarities. -/
theorem test_poll_branches :
    got (exec .poll (atWord 0x08#7 (levels true false))) (fun t => t.phase == 0x3#4 && t.dly == 0) = true ∧
    got (exec .poll { atWord 0x08#7 (levels true false) with
        params := { Config.default with nTick := 25, btnActive := false } })
      (fun t => t.phase == 0x2#4 && t.dly == 25) = true := by decide

/-- 95_test_vectors P4, lines 3 and 5. -/
theorem test_delay_counts :
    got (exec .delay { State.reset with phase := 0x2#4, dly := 2 })
      (fun t => t.phase == 0x2#4 && t.dly == 1) = true ∧
    got (exec .delay { State.reset with phase := 0x2#4 }) (fun t => t.phase == 0x0#4) = true := by decide

/-- 95_test_vectors P4, lines 8 and 9. -/
theorem test_outoff_drvoff :
    got (exec .outoff (quiet 0)) (fun t => !t.outEn && t.drvOn && t.phase == 0x4#4) = true ∧
    got (exec .drvoff { quiet 0 with params := { Config.default with nDebounce := 1 } })
      (fun t => t.outEn && !t.drvOn && t.phase == 0x5#4 && t.dly == 1) = true := by decide

/-- 95_test_vectors 6.1: the three debounce phases leave to different phases. -/
theorem test_debounce_successors :
    got (exec .db1 (quiet 0)) (fun t => t.phase == 0x6#4) = true ∧
    got (exec .db2 (quiet 0)) (fun t => t.phase == 0x8#4 && sleepReq t) = true ∧
    got (exec .db3 (quiet 0)) (fun t => t.phase == 0xC#4) = true := by decide

/-- 95_test_vectors P4, lines 12, 14 and 26. -/
theorem test_release_waits :
    got (exec .rel1 (atWord 0x30#7 (levels true true))) (fun t => t.phase == 0x6#4) = true ∧
    got (exec .rel1 (atWord 0x30#7 (levels false true))) (fun t => t.phase == 0x7#4) = true ∧
    got (exec .rel2 (atWord 0x60#7 (levels false false))) (fun t => t.phase == 0x2#4) = true := by decide

/-- 95_test_vectors P4, lines 19 and 20. -/
theorem test_sleep_waits_for_wake :
    got (exec .sleep (atWord 0x40#7 (levels true false))) (fun t => t.phase == 0x8#4) = true ∧
    got (exec .sleep (atWord 0x40#7 (levels false true))) (fun t => t.phase == 0x9#4) = true := by decide

/-- 95_test_vectors P4, lines 21 and 22. -/
theorem test_outon_drvon :
    got (exec .outon { quiet 0 with outEn := false, drvOn := false })
      (fun t => t.outEn && !t.drvOn && t.phase == 0xA#4) = true ∧
    got (exec .drvon { quiet 0 with drvOn := false })
      (fun t => t.drvOn && t.phase == 0xB#4) = true := by decide

/-! ## The clock edge -/

/-- 70_reset R170, 95_test_vectors P10: reset in the middle of a tick. -/
theorem test_reset_in_a_tick :
    got (step { atWord 0x04#7 ⟨true, true, true⟩ with rn := 0x5A00#16, centerX := 4#16, agitation := 5130#16 })
      (fun t => t.rn == 1#16 && t.centerX == 0#16 && t.agitation == 5120#16 && t.ss == 0#3) = true := by
  decide

/-- 30_encoding R64: an unlisted word has no successor. -/
theorem test_unlisted_word_stops :
    step (atWord 0x68#7 (levels false false)) = .fault .reservedPhase ∧
      step (atWord 0x09#7 (levels false false)) = .fault .straySubStep := ⟨rfl, rfl⟩

/-- Log 30: a placed word runs as the first operation after reset. -/
theorem test_placed_word_runs :
    got (step (State.reset.withFetchWord 8 0x18)) (fun t => !t.outEn && t.phase == 0x4#4) = true ∧
      got (step (State.reset.withFetchWord 8 0x00)) (fun t => t.movX == 4#16) = true := by decide
/-! ## Witnesses

For each obligation with hypotheses, states that meet them, at the boundaries of each clause. -/

/-- The tick invariants, from a condition `decide` can evaluate. -/
theorem tickInv_of {s : State}
    (h : Legal s.params ∧
      (-(s.params.maxDev : Int) ≤ s.centerX.toInt ∧ s.centerX.toInt ≤ s.params.maxDev) ∧
      (-(s.params.maxDev : Int) ≤ s.centerY.toInt ∧ s.centerY.toInt ≤ s.params.maxDev) ∧
      s.params.minUncalm - s.params.uncalmInc ≤ s.agitation.toNat ∧
      s.agitation.toNat ≤ s.params.maxUncalm + s.params.uncalmInc ∧
      (s.agitationDirection.toInt = s.params.uncalmInc ∨
        s.agitationDirection.toInt = -(s.params.uncalmInc : Int)) ∧
      (s.dutyA.toNat : Int) = 155 + s.centerX.toInt ∧
      (s.dutyB.toNat : Int) = 155 + s.centerY.toInt) : TickInv s :=
  ⟨h.1, h.2.1, h.2.2.1, h.2.2.2.1, h.2.2.2.2.1, h.2.2.2.2.2.1, h.2.2.2.2.2.2.1, h.2.2.2.2.2.2.2⟩

/-- The edge invariant, from the tick invariants and a condition `decide` can evaluate. -/
theorem inv_of {s : State} (ht : TickInv s)
    (h : (s.phase.toNat ≤ 12 ∧ (s.phase = 0#4 ∨ s.ss = 0#3)) ∧
      (-127 ≤ s.movX.toInt ∧ s.movX.toInt ≤ 127) ∧ (-127 ≤ s.movY.toInt ∧ s.movY.toInt ≤ 127) ∧
      (155 ≤ s.dutyA.toNat + s.params.maxDev ∧ s.dutyA.toNat ≤ 155 + s.params.maxDev) ∧
      (155 ≤ s.dutyB.toNat + s.params.maxDev ∧ s.dutyB.toNat ≤ 155 + s.params.maxDev) ∧
      ∀ p ∈ (phaseOfCode s.phase).toList,
        (s.outEn = outEnIn p ∧ s.drvOn = drvOnIn p) ∧ s.dly ≤ dlyLoad s.params p) : Inv s where
  legal := ht.legal
  listed := h.1
  agitation_ge := ht.agitation_ge
  agitation_le := ht.agitation_le
  direction := ht.direction
  movX_range := h.2.1
  movY_range := h.2.2.1
  center_within := fun _ => ⟨ht.centerX_within, ht.centerY_within⟩
  duty_eq := fun _ => ⟨ht.dutyA_eq, ht.dutyB_eq⟩
  dutyA_range := h.2.2.2.1
  dutyB_range := h.2.2.2.2.1
  outputs := fun p hp => (h.2.2.2.2.2 p (by simp [hp])).1
  dly_bound := fun p hp => (h.2.2.2.2.2 p (by simp [hp])).2

/-- A state in the middle of a phase of the Power Controller, with the outputs it has there, a delay of 2
loaded where the phase counts, and the given levels ahead. -/
def held (p : Phase) (ahead : List Inputs) : State :=
  { State.reset with
    phase := phaseCode p, outEn := outEnIn p, drvOn := drvOnIn p, inputs := ahead, centerX := 100#16,
    dutyA := 255#8, params := { Config.default with nTick := 3, nDebounce := 2 } }

/-- A tick about to damp: DAMP is next and the count becomes 4. -/
def aboutToDamp : State :=
  { State.reset with ss := 5#3, tickCounter := 3#8, velX := num (-208), inputs := [levels true true] }

theorem witness_NextbStaysBelowBound :
    (∃ t, exec (.nextb 1#16) State.reset = .next t) ∧ (∃ t, exec (.nextb 255#16) State.reset = .next t) ∧
      ∃ t, exec (.nextb 0#16) State.reset = .next t := ⟨⟨_, rfl⟩, ⟨_, rfl⟩, ⟨_, rfl⟩⟩

theorem witness_ZeroRegisterIsAFixedPoint :
    (let s := { atWord 0x00#7 (levels false false) with rn := 0#16 };
      rstNow s = false ∧ s.rn = 0#16 ∧ controlWord s = 0x00#7 ∧ ∃ t, step s = .next t ∧ (t.rn == 0#16) = true) ∧
    (let s := { atWord 0x01#7 (levels false false) with rn := 0#16 };
      rstNow s = false ∧ s.rn = 0#16 ∧ controlWord s = 0x01#7 ∧ ∃ t, step s = .next t ∧ (t.rn == 0#16) = true) ∧
    (let s := atWord 0x01#7 (levels false false);
      rstNow s = false ∧ s.rn ≠ 0#16 ∧ ∃ t, step s = .next t ∧ (t.rn == 0xB400#16) = true) :=
  ⟨⟨rfl, rfl, rfl, next_of_got (by decide)⟩, ⟨rfl, rfl, rfl, next_of_got (by decide)⟩,
    ⟨rfl, by decide, next_of_got (by decide)⟩⟩

theorem witness_AgitResult :
    buildLegal State.reset.params ∧
    (5119#16).toNat < State.reset.params.minUncalm ∧ State.reset.params.minUncalm ≤ (5120#16).toNat ∧
    (30720#16).toNat ≤ State.reset.params.maxUncalm ∧ State.reset.params.maxUncalm < (30721#16).toNat := by
  decide

theorem witness_AgitNeverWrapsWithinBounds :
    let s := { State.reset with agitation := 30730#16 }
    TickInv s ∧ ∃ t, exec .agit s = .next t ∧ (t.agitation == 30720#16) = true :=
  ⟨tickInv_of (by decide), next_of_got (by decide)⟩

theorem witness_ClampResult :
    let s := held .poll []
    s.params.maxDev ≤ 100 ∧ ∃ t, exec .clamp s = .next t ∧ (t.centerX == 100#16) = true :=
  ⟨by decide, next_of_got (by decide)⟩

theorem witness_DampResult :
    aboutToDamp.params.dampWidth = .w16 ∧ State.reset.params.dampWidth = .w16 ∧
    (∃ t, exec .damp aboutToDamp = .next t ∧ (t.tickCounter.toNat % 4 == 0) = true) ∧
    ∃ t, exec .damp State.reset = .next t ∧ (t.tickCounter.toNat % 4 != 0) = true :=
  ⟨rfl, rfl, next_of_got (by decide), next_of_got (by decide)⟩

theorem witness_DampWithExactProduct :
    let p := { Config.default with dampWidth := .w32 }
    p.dampWidth = .w32 ∧
    (∃ t, exec .damp { aboutToDamp with params := p } = .next t ∧ (t.tickCounter.toNat % 4 == 0) = true) ∧
    ∃ t, exec .damp { State.reset with params := p } = .next t ∧ (t.tickCounter.toNat % 4 != 0) = true :=
  ⟨rfl, next_of_got (by decide), next_of_got (by decide)⟩

theorem witness_EightEdgesMakeOneTick :
    Legal (quiet 8).params ∧ controlWord (quiet 8) = 0x00#7 ∧ NoReset (quiet 8) 8 := by
  unfold NoReset
  decide

theorem witness_CountingPhaseResults :
    { held .db1 [] with dly := 2 }.dly ≠ 0 ∧ (held .db1 []).dly = 0 := by decide

theorem witness_PollResult :
    (inputNow (held .poll [levels true false])).btn = (held .poll []).params.btnActive ∧
      (inputNow (held .poll [levels false false])).btn ≠ (held .poll []).params.btnActive := by decide

theorem witness_ReleaseWaitResults :
    (inputNow (held .rel1 [levels true false])).btn = (held .rel1 []).params.btnActive ∧
      (inputNow (held .rel2 [levels false false])).btn ≠ (held .rel2 []).params.btnActive := by decide

theorem witness_SleepResult :
    (inputNow (held .sleep [levels true false])).wake = false ∧
      (inputNow (held .sleep [levels true true])).wake = true ∧
      Inv (held .sleep []) ∧ (held .sleep []).phase = 0x8#4 :=
  ⟨rfl, rfl, inv_of (tickInv_of (by decide)) (by decide), rfl⟩

/-- Every listed word, and both values of each condition of the table. -/
theorem witness_SuccessorTable :
    (∀ w ∈ [0x00#7, 0x06#7, 0x07#7, 0x08#7, 0x10#7, 0x18#7, 0x20#7, 0x28#7, 0x30#7, 0x38#7, 0x40#7, 0x48#7,
        0x50#7, 0x58#7, 0x60#7], ∀ b ∈ [false, true], ∀ d ∈ [0, 1],
      let s := { atWord w (levels b b) with dly := d }
      Legal s.params ∧ s.phase.toNat ≤ 12 ∧ (s.phase = 0#4 ∨ s.ss = 0#3) ∧ rstNow s = false ∧
        pressed s = b ∧ wakeNow s = b) := by decide

theorem witness_CountingPhaseLastsLoadPlusOne :
    ∀ h ∈ [Phase.delay, .db1, .db2, .db3], ∀ d ∈ [0, 2],
      let s := { held h (List.replicate 3 (levels true true)) with dly := d }
      Legal s.params ∧ s.phase = phaseCode h ∧ s.ss = 0#3 ∧ ∀ j < s.dly + 1, (inputAt s j).rst = false := by
  decide

theorem witness_WaitsHaveNoTimeout :
    (∀ p ∈ [Phase.rel1, .rel2],
      let s := held p (List.replicate 2 (levels true true))
      Legal s.params ∧ s.ss = 0#3 ∧ (∀ j < 2, (inputAt s j).rst = false) ∧ s.phase = phaseCode p ∧
        ∀ j < 2, (inputAt s j).btn = s.params.btnActive) ∧
    (let s := held .sleep (List.replicate 2 (levels true false));
      Legal s.params ∧ s.ss = 0#3 ∧ (∀ j < 2, (inputAt s j).rst = false) ∧ s.phase = phaseCode .sleep ∧
        ∀ j < 2, (inputAt s j).wake = false) := by decide

theorem witness_MainLoopTripComputesOneTick :
    let s := { quiet 13 with params := { Config.default with nTick := 3 } }
    Legal s.params ∧ controlWord s = 0x00#7 ∧ NoReset s (8 + 1 + (s.params.nTick + 1)) ∧
      (inputAt s 8).btn ≠ s.params.btnActive := by
  unfold NoReset
  decide

/-- One pressed poll, three edges nobody reads the button in and the debounce, two pressed samples, the
release, and the second debounce. -/
theorem witness_PressAndReleaseLeadToSleep :
    let s := held .poll (List.replicate 8 (levels true true) ++ List.replicate 6 (levels false true))
    Legal s.params ∧ controlWord s = 0x08#7 ∧
    NoReset s (1 + 1 + 1 + (s.params.nDebounce + 1) + 2 + 1 + (s.params.nDebounce + 1)) ∧
    (inputAt s 0).btn = s.params.btnActive ∧
    (∀ j < 2, (inputAt s (4 + s.params.nDebounce + j)).btn = s.params.btnActive) ∧
    (inputAt s (4 + s.params.nDebounce + 2)).btn ≠ s.params.btnActive := by
  unfold NoReset
  decide

theorem witness_WakeLeadsBackToTheTick :
    let s := held .sleep (List.replicate 8 (levels true true) ++ List.replicate 6 (levels false false))
    Legal s.params ∧ controlWord s = 0x40#7 ∧
    NoReset s (1 + 1 + 1 + (s.params.nDebounce + 1) + 2 + 1 + (s.params.nTick + 1)) ∧
    (inputAt s 0).wake = true ∧
    (∀ j < 2, (inputAt s (4 + s.params.nDebounce + j)).btn = s.params.btnActive) ∧
    (inputAt s (4 + s.params.nDebounce + 2)).btn ≠ s.params.btnActive := by
  unfold NoReset
  decide

theorem witness_EdgeRunsTheDecodedOperation :
    let s := held .drvon [levels true true]
    Legal s.params ∧ decode (controlWord s) = .ok .drvon ∧ rstNow s = false ∧
      ∃ t, exec .drvon s = .next t ∧ t.drvOn = true :=
  ⟨by decide, rfl, rfl, next_of_got (check := fun t => t.drvOn) (by decide)⟩

theorem witness_PlacedWordRunsNext :
    Legal (held .sleep []).params ∧ decodeTableWord 8 0x28 = some .db1 := by decide

theorem witness_ResetWinsOverEverything :
    ∀ w ∈ [0x04#7, 0x40#7, 0x60#7],
      let s := atWord w ⟨true, true, true⟩
      Legal s.params ∧ (s.phase.toNat ≤ 12 ∧ (s.phase = 0#4 ∨ s.ss = 0#3)) ∧ rstNow s = true := by decide

theorem witness_DecodeAndEncodeAgree :
    Instr.wellFormed .damp = true ∧ decode 0x60#7 = .ok .rel2 ∧ Instr.wellFormed .step = false :=
  ⟨rfl, rfl, rfl⟩

theorem witness_UnlistedWordsFault :
    Legal (quiet 0).params ∧ 13 ≤ (atWord 0x68#7 default).phase.toNat ∧ 13 ≤ (atWord 0x7F#7 default).phase.toNat ∧
    ∀ w ∈ [0x09#7, 0x67#7], 1 ≤ (atWord w default).phase.toNat ∧ (atWord w default).phase.toNat ≤ 12 ∧
      (atWord w default).ss ≠ 0#3 := by decide

theorem witness_IllegalConfigurationHasNoRun :
    ¬ Legal { Config.default with minUncalm := 30721 } ∧ ¬ Legal { Config.default with rstDir := 0#16 } := by
  decide

theorem witness_EachComponentWritesItsOwnState :
    (rstNow (atWord 0x00#7 (levels true true)) = false ∧ (atWord 0x00#7 (levels true true)).phase = 0x0#4 ∧
      ∃ t, step (atWord 0x00#7 (levels true true)) = .next t ∧ (t.rn == 0xB400#16) = true) ∧
    (rstNow (held .outoff [levels true true]) = false ∧ (held .outoff [levels true true]).phase ≠ 0x0#4 ∧
      ∃ t, step (held .outoff [levels true true]) = .next t ∧ (!t.outEn) = true) :=
  ⟨⟨rfl, rfl, next_of_got (by decide)⟩, ⟨rfl, by decide, next_of_got (check := fun t => !t.outEn) (by decide)⟩⟩

theorem witness_UnreadInputsHaveNoEffect :
    (held .db2 []).phase ≠ 0x8#4 ∧ (held .sleep []).phase ≠ 0x1#4 ∧ (held .sleep []).phase ≠ 0x6#4 ∧
      (held .sleep []).phase ≠ 0xC#4 := by decide

theorem witness_DutyPortsChangeInEmitOnly :
    (let s := { atWord 0x07#7 (levels false false) with centerX := 4#16 };
      rstNow s = false ∧ controlWord s = 0x07#7 ∧ ∃ t, step s = .next t ∧ (t.dutyA == 159#8) = true) ∧
    (let s := { atWord 0x06#7 (levels false false) with centerX := 4#16 };
      rstNow s = false ∧ controlWord s ≠ 0x07#7 ∧ s.phase = 0x0#4 ∧ s.ss ≠ 7#3 ∧
        ∃ t, step s = .next t ∧ (t.dutyA == 155#8) = true) :=
  ⟨⟨rfl, rfl, next_of_got (by decide)⟩, ⟨rfl, by decide, rfl, by decide, next_of_got (by decide)⟩⟩

theorem witness_OutputsSwitchInOrder :
    (∃ t, step (held .drvoff [levels true true]) = .next t ∧ (!t.drvOn) = true) ∧
    (let s := held .outoff [levels true true, levels true true];
      Inv s ∧ NoReset s 2 ∧ s.phase = 0x3#4) ∧
    (let s := held .outon [levels true true, levels true true];
      Inv s ∧ NoReset s 2 ∧ s.phase = 0x9#4) :=
  ⟨next_of_got (check := fun t => !t.drvOn) (by decide),
    ⟨inv_of (tickInv_of (by decide)) (by decide), by unfold NoReset; decide, rfl⟩,
    ⟨inv_of (tickInv_of (by decide)) (by decide), by unfold NoReset; decide, rfl⟩⟩

theorem witness_PowerChangesInTwoStepsOnly :
    (rstNow (held .db2 [levels true true]) = false ∧ power (held .db2 [levels true true]) = .running ∧
      ∃ t, step (held .db2 [levels true true]) = .next t ∧ sleepReq t = true) ∧
    (rstNow (held .sleep [levels true true]) = false ∧ power (held .sleep [levels true true]) = .sleeping ∧
      ∃ t, step (held .sleep [levels true true]) = .next t ∧ (!sleepReq t) = true) :=
  ⟨⟨rfl, by decide, next_of_got (by decide)⟩,
    ⟨rfl, by decide, next_of_got (check := fun t => !sleepReq t) (by decide)⟩⟩

theorem witness_TickKeepsTheFlameInvariants :
    Legal { Config.default with seed := 0#16, rstVelX := 32767#16 } ∧
    (TickInv (held .poll []) ∧ ∃ t, exec .step (held .poll []) = .next t) ∧
    (let s := held .rel1 [levels false false];
      TickInv s ∧ s.phase ≠ 0x0#4 ∧ rstNow s = false ∧ ∃ t, step s = .next t ∧ (t.phase == 0x7#4) = true) :=
  ⟨by decide, ⟨tickInv_of (by decide), ⟨_, rfl⟩⟩,
    ⟨tickInv_of (by decide), by decide, rfl, next_of_got (by decide)⟩⟩

/-- Also for TheMachineNeverStops, with this state and any number of edges. -/
theorem witness_EveryEdgeKeepsTheInvariant :
    Inv aboutToDamp ∧ ∃ t, step aboutToDamp = .next t ∧ (t.velX == num (-11)) = true :=
  ⟨inv_of (tickInv_of (by decide)) (by decide), next_of_got (by decide)⟩

theorem witness_InvariantHoldsAtEveryLegalReset :
    Legal { Config.default with
      rstCenterX := 100#16, rstCenterY := num (-100), rstAgitation := 5110#16,
      rstDir := num (-10) } := by decide

theorem witness_TicksAreAFunctionOfTheFlame :
    SameFlameParams (held .poll []).params State.reset.params ∧
      flame (held .sleep [levels true true]) = flame (held .poll []) :=
  ⟨by unfold SameFlameParams; decide, rfl⟩

theorem witness_EveryRunIsWholeTicks :
    controlWord (quiet 9) = 0x00#7 ∧ NoReset (quiet 9) 9 ∧
      ∃ t, runSteps 9 (quiet 9) = .next t ∧ (t.phase == 0x2#4 && t.dutyA == 159#8) = true :=
  ⟨rfl, by unfold NoReset; decide, next_of_got (by decide)⟩

theorem witness_DampingOnEveryFourthTickOnly :
    State.reset.params.dampWidth = .w16 ∧
    (∃ t, exec .step State.reset = .next t ∧ (t.tickCounter.toNat % 4 != 0) = true) ∧
    ∃ t, exec .step { State.reset with tickCounter := 255#8 } = .next t ∧
      (t.tickCounter.toNat % 4 == 0) = true :=
  ⟨rfl, next_of_got (by decide), next_of_got (by decide)⟩

/-- A state within the tick invariants that goes down with the agitation `a`. -/
def goingDown (a : Nat) : State :=
  { State.reset with agitation := BitVec.ofNat 16 a, agitationDirection := num (-10) }

theorem witness_DirectionTurnsTheTickAfter :
    (∀ a ∈ [5119, 5120, 30720, 30721], ∃ t, exec .step (goingDown a) = .next t) ∧
    TickInv (goingDown 5119) ∧ (goingDown 5119).agitation.toNat < State.reset.params.minUncalm ∧
    TickInv (goingDown 5120) ∧ State.reset.params.minUncalm ≤ (goingDown 5120).agitation.toNat ∧
    TickInv (goingDown 30720) ∧ (goingDown 30720).agitation.toNat ≤ State.reset.params.maxUncalm ∧
    TickInv (goingDown 30721) ∧ State.reset.params.maxUncalm < (goingDown 30721).agitation.toNat :=
  ⟨fun _ _ => ⟨_, rfl⟩, tickInv_of (by decide), by decide, tickInv_of (by decide), by decide,
    tickInv_of (by decide), by decide, tickInv_of (by decide), by decide⟩

theorem witness_AgitationIsATriangleWave :
    TickInv (held .delay []) ∧ (held .delay []).agitation.toNat = (held .delay []).params.minUncalm ∧
      (held .delay []).agitationDirection.toInt = (held .delay []).params.uncalmInc ∧
      (held .delay []).params.maxUncalm - (held .delay []).params.minUncalm =
        2560 * (held .delay []).params.uncalmInc :=
  ⟨tickInv_of (by decide), by decide, by decide, by decide⟩

/-- A poke of 201 from 0, and one that wraps in INTEG from 100. -/
theorem witness_HugePokeSaturates :
    (let s := { State.reset with movX := 201#16, movY := num (-201), velX := 3#16 };
      TickInv s ∧ s.velX.toInt / 4 = 0 ∧ 2 * (s.params.maxDev : Int) < |s.movX.toInt| ∧
        s.velY.toInt / 4 = 0 ∧ 2 * (s.params.maxDev : Int) < |s.movY.toInt|) ∧
    (let s := { held .poll [] with movX := 32767#16 };
      TickInv s ∧ 2 * (s.params.maxDev : Int) < |s.movX.toInt| ∧
        ∃ t, exec .integ s = .next t ∧ (t.centerX == num (-32669)) = true) :=
  ⟨⟨tickInv_of (by decide), by decide, by decide, by decide, by decide⟩,
    ⟨tickInv_of (by decide), by decide, next_of_got (by decide)⟩⟩

theorem witness_VelocityBoundIsKept :
    Inv aboutToDamp ∧ aboutToDamp.params.dampWidth = .w16 ∧ rstNow aboutToDamp = false ∧
      VelBound aboutToDamp ∧ controlWord aboutToDamp = 0x05#7 ∧
      (aboutToDamp.tickCounter.toNat + 1) % 4 = 0 ∧ ∃ t, step aboutToDamp = .next t :=
  ⟨inv_of (tickInv_of (by decide)) (by decide), rfl, rfl, by unfold VelBound springsSinceDamping; decide,
    rfl, rfl, (next_of_got (check := fun _ => true) (by decide)).imp fun _ h => h.1⟩

theorem witness_VelocityStaysBounded :
    Inv aboutToDamp ∧ VelBound aboutToDamp ∧ NoReset aboutToDamp 1 ∧
      ∃ t, runSteps 1 aboutToDamp = .next t ∧ (t.velX == num (-11)) = true :=
  ⟨inv_of (tickInv_of (by decide)) (by decide), by unfold VelBound springsSinceDamping; decide,
    by unfold NoReset; decide, next_of_got (by decide)⟩

end Sys2Proof.Tests
end

section
/-! Proofs of the family 10_state: what a clock edge outside P_STEP may change (10_state R34), where
`power` changes (R27), and the tick invariants (R31). -/

namespace Sys2Proof.Machine

/-! ## What the selected operation can be, inside and outside P_STEP -/

/-- In P_STEP the sub-step selects one of the eight operations of the tick (30_encoding R58). -/
theorem selected_cases_in_tick {ss : BitVec 3} {i : Instr} (h : decode (packWord 0#4 ss) = .ok i) :
    (i = .drawx ∧ ss = 0#3) ∨ (i = .drawy ∧ ss = 1#3) ∨ (i = .agit ∧ ss = 2#3) ∨
    (i = .integ ∧ ss = 3#3) ∨ (i = .clamp ∧ ss = 4#3) ∨ (i = .damp ∧ ss = 5#3) ∨
    (i = .spring ∧ ss = 6#3) ∨ (i = .emit ∧ ss = 7#3) := by
  simpa using selected_cases h

/-- Outside P_STEP the phase selects one of the twelve operations of the main loop and the Power
Controller (30_encoding R58). -/
theorem selected_cases_outside_tick {p : BitVec 4} {ss : BitVec 3} {i : Instr} (hp : p ≠ 0#4)
    (h : decode (packWord p ss) = .ok i) :
    (i = .poll ∧ p = 1#4 ∧ ss = 0#3) ∨ (i = .delay ∧ p = 2#4 ∧ ss = 0#3) ∨
    (i = .outoff ∧ p = 3#4 ∧ ss = 0#3) ∨ (i = .drvoff ∧ p = 4#4 ∧ ss = 0#3) ∨
    (i = .db1 ∧ p = 5#4 ∧ ss = 0#3) ∨ (i = .rel1 ∧ p = 6#4 ∧ ss = 0#3) ∨
    (i = .db2 ∧ p = 7#4 ∧ ss = 0#3) ∨ (i = .sleep ∧ p = 8#4 ∧ ss = 0#3) ∨
    (i = .outon ∧ p = 9#4 ∧ ss = 0#3) ∨ (i = .drvon ∧ p = 10#4 ∧ ss = 0#3) ∨
    (i = .db3 ∧ p = 11#4 ∧ ss = 0#3) ∨ (i = .rel2 ∧ p = 12#4 ∧ ss = 0#3) := by
  simpa [hp] using selected_cases h

/-- An edge without reset that has a next state ran the selected operation. -/
theorem step_cases_of_no_reset {s t : State} (hr : rstNow s = false) (h : step s = .next t) :
    ∃ i u, decode (controlWord s) = .ok i ∧ exec i s = .next u ∧ t = clockEdge u := by
  obtain ⟨-, i, hd, ⟨hrst, -⟩ | ⟨-, u, hx, ht⟩⟩ := step_cases h
  · rw [hr] at hrst
    cases hrst
  · exact ⟨i, u, hd, hx, ht⟩

/-- Everything an operation of the tick can do, by its sub-step (42_physics R101 to R108). -/
theorem exec_cases_in_tick {s u : State} {i : Instr} (hp : s.phase = 0#4)
    (hd : decode (controlWord s) = .ok i) (hx : exec i s = .next u) :
    (s.ss = 0#3 ∧ u = drawX s) ∨ (s.ss = 1#3 ∧ u = drawY s) ∨ (s.ss = 2#3 ∧ u = agitate s) ∨
    (s.ss = 3#3 ∧ u = integPosition s) ∨ (s.ss = 4#3 ∧ u = clampPosition s) ∨
    (s.ss = 5#3 ∧ u = dampVelocity s) ∨ (s.ss = 6#3 ∧ u = springForce s) ∨
    (s.ss = 7#3 ∧ u = emitDuty s) := by
  rw [controlWord, hp] at hd
  rcases selected_cases_in_tick hd with
    ⟨rfl, h⟩ | ⟨rfl, h⟩ | ⟨rfl, h⟩ | ⟨rfl, h⟩ | ⟨rfl, h⟩ | ⟨rfl, h⟩ | ⟨rfl, h⟩ | ⟨rfl, h⟩ <;>
    cases hx <;> simp [h]

/-- Everything an operation outside P_STEP can do, by its phase (43_power R123 to R134). -/
theorem exec_cases_outside_tick {s u : State} {i : Instr} (hp : s.phase ≠ 0#4)
    (hd : decode (controlWord s) = .ok i) (hx : exec i s = .next u) :
    (s.phase = 1#4 ∧ u = if pressed s then enter .outoff s else enter .delay s) ∨
    (s.phase = 2#4 ∧ u = countDown .step s) ∨
    (s.phase = 3#4 ∧ u = enter .drvoff { s with outEn := false }) ∨
    (s.phase = 4#4 ∧ u = enter .db1 { s with drvOn := false }) ∨
    (s.phase = 5#4 ∧ u = countDown .rel1 s) ∨
    (s.phase = 6#4 ∧ u = awaitRelease .db2 s) ∨
    (s.phase = 7#4 ∧ u = countDown .sleep s) ∨
    (s.phase = 8#4 ∧ u = if wakeNow s then takeWake s else s) ∨
    (s.phase = 9#4 ∧ u = enter .drvon { s with outEn := true }) ∨
    (s.phase = 10#4 ∧ u = enter .db3 { s with drvOn := true }) ∨
    (s.phase = 11#4 ∧ u = countDown .rel2 s) ∨
    (s.phase = 12#4 ∧ u = awaitRelease .delay s) := by
  rcases selected_cases_outside_tick hp hd with
    ⟨rfl, h, -⟩ | ⟨rfl, h, -⟩ | ⟨rfl, h, -⟩ | ⟨rfl, h, -⟩ | ⟨rfl, h, -⟩ | ⟨rfl, h, -⟩ |
    ⟨rfl, h, -⟩ | ⟨rfl, h, -⟩ | ⟨rfl, h, -⟩ | ⟨rfl, h, -⟩ | ⟨rfl, h, -⟩ | ⟨rfl, h, -⟩ <;>
    cases hx <;> simp [h]

/-! ## What an operation outside P_STEP may write (10_state R34) -/

/-- `u` is `s` up to `phase`, `ss`, `dly`, `out_en` and `drv_on`: what a step outside P_STEP may write
(10_state R34). -/
def OnlyControlChanges (s u : State) : Prop :=
  u = { s with phase := u.phase, ss := u.ss, dly := u.dly, outEn := u.outEn, drvOn := u.drvOn }

theorem OnlyControlChanges.flame_eq {s u : State} (h : OnlyControlChanges s u) : flame u = flame s := by
  rw [h]
  rfl

theorem OnlyControlChanges.params_eq {s u : State} (h : OnlyControlChanges s u) :
    u.params = s.params := by
  rw [h]

theorem OnlyControlChanges.refl (s : State) : OnlyControlChanges s s := rfl

theorem OnlyControlChanges.of_outputs (p : Phase) (outEn drvOn : Bool) (s : State) :
    OnlyControlChanges s (enter p { s with outEn := outEn, drvOn := drvOn }) := rfl

theorem enter_onlyControlChanges (p : Phase) (s : State) : OnlyControlChanges s (enter p s) := rfl

theorem countDown_onlyControlChanges (p : Phase) (s : State) :
    OnlyControlChanges s (countDown p s) := by
  obtain ⟨-, h⟩ | ⟨-, h⟩ := countDown_cases p s <;> rw [h] <;> rfl

theorem awaitRelease_onlyControlChanges (p : Phase) (s : State) :
    OnlyControlChanges s (awaitRelease p s) := by
  obtain ⟨-, h⟩ | ⟨-, h⟩ := awaitRelease_cases p s <;> rw [h] <;> rfl

/-- 10_state R34, for the operation selected. -/
theorem exec_onlyControlChanges {s u : State} {i : Instr} (hp : s.phase ≠ 0#4)
    (hd : decode (controlWord s) = .ok i) (hx : exec i s = .next u) : OnlyControlChanges s u := by
  rcases exec_cases_outside_tick hp hd hx with
    ⟨-, rfl⟩ | ⟨-, rfl⟩ | ⟨-, rfl⟩ | ⟨-, rfl⟩ | ⟨-, rfl⟩ | ⟨-, rfl⟩ | ⟨-, rfl⟩ | ⟨-, rfl⟩ |
    ⟨-, rfl⟩ | ⟨-, rfl⟩ | ⟨-, rfl⟩ | ⟨-, rfl⟩
  · split <;> exact enter_onlyControlChanges _ s
  · exact countDown_onlyControlChanges _ s
  · exact OnlyControlChanges.of_outputs _ _ _ s
  · exact OnlyControlChanges.of_outputs _ _ _ s
  · exact countDown_onlyControlChanges _ s
  · exact awaitRelease_onlyControlChanges _ s
  · exact countDown_onlyControlChanges _ s
  · split
    · exact enter_onlyControlChanges _ s
    · exact OnlyControlChanges.refl s
  · exact OnlyControlChanges.of_outputs _ _ _ s
  · exact OnlyControlChanges.of_outputs _ _ _ s
  · exact countDown_onlyControlChanges _ s
  · exact awaitRelease_onlyControlChanges _ s

/-- 10_state R34, for a clock edge: outside P_STEP an edge without reset leaves the configuration and
the flame data as they are. -/
theorem step_keeps_flame_outside_tick {s t : State} (hp : s.phase ≠ 0#4) (hr : rstNow s = false)
    (h : step s = .next t) : t.params = s.params ∧ flame t = flame s := by
  obtain ⟨i, u, hd, hx, rfl⟩ := step_cases_of_no_reset hr h
  have hu := exec_onlyControlChanges hp hd hx
  exact ⟨hu.params_eq, hu.flame_eq⟩

/-! ## Where `power` changes (10_state R27) -/

theorem power_eq_sleeping_iff (s : State) : power s = .sleeping ↔ s.phase = 0x8#4 := by
  by_cases h : s.phase = 0x8#4 <;> simp [power, phaseCode, h]

theorem power_eq_running_iff (s : State) : power s = .running ↔ s.phase ≠ 0x8#4 := by
  by_cases h : s.phase = 0x8#4 <;> simp [power, phaseCode, h]

theorem sleepReq_eq_true_iff (s : State) : sleepReq s = true ↔ power s = .sleeping := by
  cases h : power s <;> simp [sleepReq, h, powerCode]

theorem countDown_phase (p : Phase) (s : State) :
    (countDown p s).phase = if s.dly = 0 then phaseCode p else s.phase := by
  obtain ⟨h0, h⟩ | ⟨h0, h⟩ := countDown_cases p s <;> simp [h, h0]

theorem awaitRelease_phase (p : Phase) (s : State) :
    (awaitRelease p s).phase = if pressed s then s.phase else phaseCode p := by
  obtain ⟨h0, h⟩ | ⟨h0, h⟩ := awaitRelease_cases p s <;> simp [h, h0]

/-- An operation of the tick stays in P_STEP, or leaves to P_POLL (42_physics R101 to R108). -/
theorem exec_phase_in_tick {s u : State} {i : Instr} (hp : s.phase = 0#4)
    (hd : decode (controlWord s) = .ok i) (hx : exec i s = .next u) :
    u.phase = 0#4 ∨ u.phase = 1#4 := by
  rcases exec_cases_in_tick hp hd hx with
    ⟨-, rfl⟩ | ⟨-, rfl⟩ | ⟨-, rfl⟩ | ⟨-, rfl⟩ | ⟨-, rfl⟩ | ⟨-, rfl⟩ | ⟨-, rfl⟩ | ⟨-, rfl⟩
  · exact .inl hp
  · exact .inl hp
  · exact .inl hp
  · exact .inl hp
  · exact .inl hp
  · exact .inl hp
  · exact .inl hp
  · exact .inr rfl

/-- The one way into P_SLEEP is the last step of P_DB2, and only the wake leads out of it
(43_power R129, R130). -/
theorem exec_phase_eq_sleep_iff {s u : State} {i : Instr}
    (hd : decode (controlWord s) = .ok i) (hx : exec i s = .next u) :
    u.phase = 0x8#4 ↔ (s.phase = 0x7#4 ∧ s.dly = 0) ∨ (s.phase = 0x8#4 ∧ wakeNow s = false) := by
  by_cases hp : s.phase = 0#4
  · rcases exec_phase_in_tick hp hd hx with h | h <;> simp [h, hp]
  · rcases exec_cases_outside_tick hp hd hx with
      ⟨h, rfl⟩ | ⟨h, rfl⟩ | ⟨h, rfl⟩ | ⟨h, rfl⟩ | ⟨h, rfl⟩ | ⟨h, rfl⟩ | ⟨h, rfl⟩ | ⟨h, rfl⟩ |
      ⟨h, rfl⟩ | ⟨h, rfl⟩ | ⟨h, rfl⟩ | ⟨h, rfl⟩ <;>
      simp [h, countDown_phase, awaitRelease_phase, takeWake, apply_ite State.phase, ite_eq_iff,
        phaseCode]

/-- Settles O42: `power` is a function of the phase, and only P_DB2 leads into P_SLEEP and only the wake
out of it. -/
theorem powerChangesInTwoStepsOnly : Obligations.PowerChangesInTwoStepsOnly := by
  refine ⟨fun s => ⟨power_eq_sleeping_iff s, sleepReq_eq_true_iff s⟩, fun s t hr h => ?_⟩
  obtain ⟨i, u, hd, hx, rfl⟩ := step_cases_of_no_reset hr h
  have hsleep := exec_phase_eq_sleep_iff hd hx
  simp only [power_eq_sleeping_iff, power_eq_running_iff, clockEdge_phase]
  constructor
  · intro hrun hu
    obtain hdb2 | ⟨hs, -⟩ := hsleep.mp hu
    · exact hdb2
    · exact absurd hs hrun
  · intro hs hu
    by_contra hw
    exact hu (hsleep.mpr (.inr ⟨hs, by simpa using hw⟩))

/-! ## The tick invariants (10_state R31) -/

/-- A position within its range gives a duty without wrapping (42_physics R109 (d)). -/
theorem dutyOf_toNat_of_withinDev {p : Params} {c : Word} (hp : buildLegal p) (h : WithinDev p c) :
    ((dutyOf c).toNat : Int) = 155 + c.toInt := by
  obtain ⟨-, -, -, -, hdev⟩ := hp
  obtain ⟨lo, hi⟩ := h
  exact dutyOf_toNat_of_fits (by omega) (by omega)

/-- CLAMP brings any position into its range (42_physics R109 (a)). -/
theorem clampAxis_withinDev {p : Params} (hp : buildLegal p) (c : Word) :
    WithinDev p (clampAxis p.maxDev c) := by
  obtain ⟨-, -, -, -, hdev⟩ := hp
  have hc := clampAxis_toInt hdev c
  constructor <;> omega

section Agitation

variable {s : State} (hp : buildLegal s.params)
  (hdir : s.agitationDirection.toInt = s.params.uncalmInc ∨
    s.agitationDirection.toInt = -(s.params.uncalmInc : Int))
include hp hdir

/-- The direction stays plus or minus the increment (42_physics R109 (c)). -/
theorem nextDirection_toInt :
    (nextDirection s).toInt = s.params.uncalmInc ∨
      (nextDirection s).toInt = -(s.params.uncalmInc : Int) := by
  obtain ⟨-, h⟩ | ⟨-, h⟩ | ⟨-, -, h⟩ := nextDirection_cases hp
  · exact .inr h
  · exact .inl h
  · rw [h]
    exact hdir

variable (hge : s.params.minUncalm - s.params.uncalmInc ≤ s.agitation.toNat)
  (hle : s.agitation.toNat ≤ s.params.maxUncalm + s.params.uncalmInc)
include hge hle

/-- Within the invariants the sum with the next direction stays within one increment of the limits: a
value past a limit turns back (42_physics R109 (b)). -/
theorem agitation_add_nextDirection_bounds :
    ((s.params.minUncalm - s.params.uncalmInc : Nat) : Int) ≤
        s.agitation.toNat + (nextDirection s).toInt ∧
      (s.agitation.toNat + (nextDirection s).toInt : Int) ≤
        s.params.maxUncalm + s.params.uncalmInc := by
  have hnext := nextDirection_toInt hp hdir
  have hcases := nextDirection_cases hp
  obtain ⟨hminmax, -, hmin, -, -⟩ := hp
  obtain ⟨habove, hd⟩ | ⟨hbelow, hd⟩ | ⟨hlo, hhi, -⟩ := hcases
  · omega
  · omega
  · omega

/-- Within the invariants AGIT does not wrap (40_arith R78). -/
theorem agitate_agitation_toNat :
    ((agitate s).agitation.toNat : Int) = s.agitation.toNat + (nextDirection s).toInt := by
  obtain ⟨lo, hi⟩ := agitation_add_nextDirection_bounds hp hdir hge hle
  obtain ⟨-, -, -, hmax, -⟩ := hp
  exact u16_toNat_of_fits (by omega) (by omega)

/-- AGIT keeps the agitation within one increment of its limits (42_physics R109 (b)). -/
theorem agitate_agitation_bounds :
    s.params.minUncalm - s.params.uncalmInc ≤ (agitate s).agitation.toNat ∧
      (agitate s).agitation.toNat ≤ s.params.maxUncalm + s.params.uncalmInc := by
  have hval := agitate_agitation_toNat hp hdir hge hle
  obtain ⟨lo, hi⟩ := agitation_add_nextDirection_bounds hp hdir hge hle
  omega

end Agitation

/-- The positions a whole tick leaves are clamped ones (42_physics R100, R105). -/
theorem wholeTick_withinDev {s : State} (hp : buildLegal s.params) :
    WithinDev s.params (wholeTick s).centerX ∧ WithinDev s.params (wholeTick s).centerY :=
  ⟨clampAxis_withinDev hp _, clampAxis_withinDev hp _⟩

/-- A whole tick leaves the duties of the positions it leaves (42_physics R108). -/
@[simp] theorem wholeTick_dutyA (s : State) : (wholeTick s).dutyA = dutyOf (wholeTick s).centerX := rfl
@[simp] theorem wholeTick_dutyB (s : State) : (wholeTick s).dutyB = dutyOf (wholeTick s).centerY := rfl

/-- The tick invariants speak of the configuration and the flame data only. -/
theorem TickInv.of_flame_eq {s t : State} (hs : TickInv s) (hp : t.params = s.params)
    (hf : flame t = flame s) : TickInv t := by
  simp only [flame, Flame.mk.injEq] at hf
  obtain ⟨-, hcx, hcy, -, -, hag, hdir, -, -, -, hda, hdb⟩ := hf
  obtain ⟨legal, centerX, centerY, agitation_ge, agitation_le, direction, dutyA, dutyB⟩ := hs
  constructor <;> simp only [hp, hcx, hcy, hag, hdir, hda, hdb] <;> assumption

/-- The tick invariants at reset (10_state R33). -/
theorem tickInv_resetWith {p : Params} (hp : Legal p) : TickInv (State.resetWith p) := by
  obtain ⟨hbuild, hxlo, hxhi, hylo, hyhi, hge, hle, hdir⟩ := hp
  exact {
    legal := ⟨hbuild, hxlo, hxhi, hylo, hyhi, hge, hle, hdir⟩
    centerX_within := ⟨hxlo, hxhi⟩
    centerY_within := ⟨hylo, hyhi⟩
    agitation_ge := hge
    agitation_le := hle
    direction := hdir
    dutyA_eq := dutyOf_toNat_of_withinDev hbuild ⟨hxlo, hxhi⟩
    dutyB_eq := dutyOf_toNat_of_withinDev hbuild ⟨hylo, hyhi⟩ }

/-- The tick invariants over one whole tick (10_state R31). -/
theorem tickInv_wholeTick {s : State} (hs : TickInv s) : TickInv (wholeTick s) := by
  obtain ⟨hX, hY⟩ := wholeTick_withinDev hs.legal.1
  obtain ⟨hge, hle⟩ :=
    agitate_agitation_bounds hs.legal.1 hs.direction hs.agitation_ge hs.agitation_le
  exact {
    legal := hs.legal
    centerX_within := hX
    centerY_within := hY
    agitation_ge := hge
    agitation_le := hle
    direction := by simpa using nextDirection_toInt hs.legal.1 hs.direction
    dutyA_eq := by rw [wholeTick_dutyA, dutyOf_toNat_of_withinDev hs.legal.1 hX]
    dutyB_eq := by rw [wholeTick_dutyB, dutyOf_toNat_of_withinDev hs.legal.1 hY] }

/-- Settles O44: at reset, over a whole tick, and, since they speak of nothing an edge outside P_STEP
writes, over such an edge. -/
theorem tickKeepsTheFlameInvariants : Obligations.TickKeepsTheFlameInvariants := by
  refine ⟨fun p hp => tickInv_resetWith hp, fun s t hs hx => ?_, fun s t hs hp hr h => ?_⟩
  · cases hx
    exact tickInv_wholeTick hs
  · obtain ⟨hparams, hflame⟩ := step_keeps_flame_outside_tick hp hr h
    exact hs.of_flame_eq hparams hflame

end Sys2Proof.Machine
end

section
/-! Proofs of the family 41_prng: the shift register bit by bit (41_prng R90). -/

namespace Sys2Proof.Machine

/-- The bits of the tap mask (00_scope R6). -/
theorem tap_getLsbD (i : Nat) :
    Config.tap.getLsbD i = decide (i = 10 ∨ i = 12 ∨ i = 13 ∨ i = 15) := by
  have hword : ∀ j < 16, Config.tap.getLsbD j = decide (j = 10 ∨ j = 12 ∨ j = 13 ∨ j = 15) := by
    decide
  obtain hi | hi := Nat.lt_or_ge i 16
  · exact hword i hi
  · rw [BitVec.getLsbD_of_ge _ _ hi, eq_comm, decide_eq_false_iff_not]
    omega

/-- 40_arith R80, bit by bit. -/
theorem lsr_getLsbD (v : Word) (n i : Nat) : (lsr v n).getLsbD i = v.getLsbD (n + i) :=
  BitVec.getLsbD_ushiftRight v n i

/-- An advance shifts every bit down by one and flips the tapped bits when the bit shifted out is 1
(41_prng R90). -/
theorem lfsrNext_getLsbD (rn : Word) (i : Nat) :
    (lfsrNext rn).getLsbD i = (rn.getLsbD (i + 1) ^^ (rn.getLsbD 0 && Config.tap.getLsbD i)) := by
  cases hout : rn.getLsbD 0 with
  | true =>
    have hnext : lfsrNext rn = xor16 (lsr rn 1) Config.tap := if_pos hout
    rw [hnext, xor16, BitVec.getLsbD_xor, lsr_getLsbD, Nat.add_comm, Bool.true_and]
  | false =>
    have hnext : lfsrNext rn = lsr rn 1 := if_neg (ne_true_of_eq_false hout)
    rw [hnext, lsr_getLsbD, Nat.add_comm, Bool.false_and, Bool.xor_false]

/-- At a tapped bit the bit shifted out comes in. -/
theorem lfsrNext_getLsbD_of_tapped {i : Nat} (h : i = 10 ∨ i = 12 ∨ i = 13 ∨ i = 15) (rn : Word) :
    (lfsrNext rn).getLsbD i = (rn.getLsbD (i + 1) ^^ rn.getLsbD 0) := by
  rw [lfsrNext_getLsbD, tap_getLsbD, decide_eq_true h, Bool.and_true]

/-- Any other bit is the shifted one. -/
theorem lfsrNext_getLsbD_of_untapped {i : Nat} (h : ¬(i = 10 ∨ i = 12 ∨ i = 13 ∨ i = 15))
    (rn : Word) : (lfsrNext rn).getLsbD i = rn.getLsbD (i + 1) := by
  rw [lfsrNext_getLsbD, tap_getLsbD, decide_eq_false h, Bool.and_false, Bool.xor_false]

/-- The bit that comes in at the top is the bit shifted out. -/
theorem lfsrNext_getLsbD_top (rn : Word) : (lfsrNext rn).getLsbD 15 = rn.getLsbD 0 := by
  rw [lfsrNext_getLsbD_of_tapped (by decide), BitVec.getLsbD_of_ge rn 16 le_rfl, Bool.false_xor]

/-- LFSR_ADV advances `rn` and has no other effect (41_prng R90). -/
theorem exec_lfsrAdv (s : State) : exec .lfsrAdv s = .next { s with rn := lfsrNext s.rn } := rfl

/-- Settles O1: each bit is a tapped or an untapped one. -/
theorem lfsrAdvanceBitByBit : Obligations.LfsrAdvanceBitByBit := by
  intro s
  refine ⟨_, exec_lfsrAdv s, rfl, lfsrNext_getLsbD_top s.rn, ?_, ?_, ?_, ?_, ?_, fun i hi => ?_⟩
  · exact lfsrNext_getLsbD_of_untapped (by decide) s.rn
  · exact lfsrNext_getLsbD_of_tapped (by decide) s.rn
  · exact lfsrNext_getLsbD_of_tapped (by decide) s.rn
  · exact lfsrNext_getLsbD_of_untapped (by decide) s.rn
  · exact lfsrNext_getLsbD_of_tapped (by decide) s.rn
  · exact lfsrNext_getLsbD_of_untapped (by omega) s.rn

end Sys2Proof.Machine
end

section
/-! Proofs of the family 42_physics: what each sub-step of the tick writes and leaves alone (R101 to R108),
then the damping and the direction over one whole tick (R111, R112). -/

namespace Sys2Proof.Machine

/-! ## The meaning of each sub-step -/

section ExecSubSteps

variable (s : State)

theorem exec_drawx : exec .drawx s = .next (drawX s) := rfl
theorem exec_drawy : exec .drawy s = .next (drawY s) := rfl
theorem exec_agit : exec .agit s = .next (agitate s) := rfl
theorem exec_integ : exec .integ s = .next (integPosition s) := rfl
theorem exec_clamp : exec .clamp s = .next (clampPosition s) := rfl
theorem exec_damp : exec .damp s = .next (dampVelocity s) := rfl
theorem exec_spring : exec .spring s = .next (springForce s) := rfl
theorem exec_emit : exec .emit s = .next (emitDuty s) := rfl
theorem exec_step : exec .step s = .next (wholeTick s) := rfl

end ExecSubSteps

/-- STEP has exactly one next state, the whole tick (42_physics R100). -/
theorem eq_wholeTick_of_exec_step {s t : State} (h : exec .step s = .next t) : t = wholeTick s := by
  rw [exec_step] at h
  cases h
  rfl

/-! ## The poke (42_physics R101, R102) -/

/-- The high half of a product with a u16 stays below the other factor (the inference 41_prng R92);
the bound 0 gives 0. -/
theorem nextBounded_value_le (m rn : Word) : (nextBounded m rn).value.toNat ≤ m.toNat - 1 := by
  have hrn : (nextBounded m rn).rn.toNat ≤ 65535 := Nat.le_of_lt_succ (nextBounded m rn).rn.isLt
  have hprod : m.toNat * (nextBounded m rn).rn.toNat ≤ m.toNat * 65535 :=
    Nat.mul_le_mul_left _ hrn
  rw [nextBounded_value_toNat]
  omega

section Poke

variable (s : State)

/-- The draw of a poke is taken from the register after one advance. -/
theorem pokeDraw_value_toNat :
    (pokeDraw s).value.toNat = s.agitation.toNat / 256 * (lfsrNext s.rn).toNat / 65536 := by
  rw [← drawBound_toNat]
  exact nextBounded_value_toNat (drawBound s) s.rn

theorem pokeDraw_value_le : (pokeDraw s).value.toNat ≤ s.agitation.toNat / 256 - 1 := by
  rw [← drawBound_toNat]
  exact nextBounded_value_le (drawBound s) s.rn

/-- The difference `r - h` fits an s16, so storing the poke does not wrap. -/
theorem poke_toInt_eq_value_sub :
    (poke s).toInt = (pokeDraw s).value.toNat - ((s.agitation.toNat / 512 : Nat) : Int) := by
  have hr := pokeDraw_value_le s
  have hagit := s.agitation.isLt
  rw [poke, drawOffset_toNat, s16_toInt_of_fits (by omega) (by omega)]

theorem poke_toInt :
    (poke s).toInt = ((s.agitation.toNat / 256 * (lfsrNext s.rn).toNat / 65536 : Nat) : Int)
      - ((s.agitation.toNat / 512 : Nat) : Int) := by
  rw [poke_toInt_eq_value_sub, pokeDraw_value_toNat]

theorem neg_offset_le_poke : -((s.agitation.toNat / 512 : Nat) : Int) ≤ (poke s).toInt := by
  rw [poke_toInt_eq_value_sub]
  omega

theorem poke_le_bound_sub_offset (hm : 1 ≤ s.agitation.toNat / 256) :
    (poke s).toInt ≤
      ((s.agitation.toNat / 256 : Nat) : Int) - 1 - ((s.agitation.toNat / 512 : Nat) : Int) := by
  have hr := pokeDraw_value_le s
  rw [poke_toInt_eq_value_sub]
  omega

/-- Below 512 both the draw and the offset are 0 (42_physics R101). -/
theorem poke_eq_zero_of_lt (h : s.agitation.toNat < 512) : poke s = 0#16 := by
  have hr := pokeDraw_value_le s
  apply BitVec.eq_of_toInt_eq
  rw [poke_toInt_eq_value_sub, BitVec.toInt_zero]
  omega

theorem poke_range : -127 ≤ (poke s).toInt ∧ (poke s).toInt ≤ 127 := by
  have hr := pokeDraw_value_le s
  have hagit := s.agitation.isLt
  rw [poke_toInt_eq_value_sub]
  omega

end Poke

/-- Settles O7: `movX` takes the poke of this state. -/
theorem drawxResult : Obligations.DrawxResult := fun s =>
  ⟨drawX s, exec_drawx s, rfl, exec_lfsrAdv s, poke_toInt s, neg_offset_le_poke s,
    poke_le_bound_sub_offset s, poke_eq_zero_of_lt s, poke_range s⟩

/-- Settles O8: `movY` takes the poke of the state DRAWX left. -/
theorem drawyResult : Obligations.DrawyResult := fun s =>
  ⟨drawY s, exec_drawy s, rfl, exec_lfsrAdv s, poke_toInt s, neg_offset_le_poke s,
    poke_le_bound_sub_offset s, poke_eq_zero_of_lt s, poke_range s⟩

/-! ## The direction (42_physics R103) -/

section Direction

variable {s : State} (hp : buildLegal s.params)
include hp

theorem nextDirection_of_lt_min (h : s.agitation.toNat < s.params.minUncalm) :
    (nextDirection s).toInt = s.params.uncalmInc := by
  have ⟨hminmax, _⟩ := hp
  obtain ⟨habove, -⟩ | ⟨-, hdir⟩ | ⟨hlo, -, -⟩ := nextDirection_cases hp
  · omega
  · exact hdir
  · omega

theorem nextDirection_of_max_lt (h : s.params.maxUncalm < s.agitation.toNat) :
    (nextDirection s).toInt = -(s.params.uncalmInc : Int) := by
  have ⟨hminmax, _⟩ := hp
  obtain ⟨-, hdir⟩ | ⟨hbelow, -⟩ | ⟨-, hhi, -⟩ := nextDirection_cases hp
  · exact hdir
  · omega
  · omega

theorem nextDirection_of_between (lo : s.params.minUncalm ≤ s.agitation.toNat)
    (hi : s.agitation.toNat ≤ s.params.maxUncalm) : nextDirection s = s.agitationDirection := by
  obtain ⟨habove, -⟩ | ⟨hbelow, -⟩ | ⟨-, -, hdir⟩ := nextDirection_cases hp
  · omega
  · omega
  · exact hdir

end Direction

/-- Settles O9: the stored direction is `nextDirection`, and the sum uses it. -/
theorem agitResult : Obligations.AgitResult := fun s hp =>
  ⟨agitate s, exec_agit s, rfl, nextDirection_of_lt_min hp, nextDirection_of_max_lt hp,
    nextDirection_of_between hp, u16_toNat _⟩

/-- Settles O53: STEP leaves the direction and the agitation of its AGIT, which within the tick
invariants does not wrap. -/
theorem directionTurnsTheTickAfter : Obligations.DirectionTurnsTheTickAfter := by
  intro s t hs hx
  obtain rfl := eq_wholeTick_of_exec_step hx
  have hp : buildLegal s.params := hs.legal.1
  have hsum : ((wholeTick s).agitation.toNat : Int) =
      s.agitation.toNat + (nextDirection s).toInt := by
    rw [wholeTick_agitation]
    exact agitate_agitation_toNat hp hs.direction hs.agitation_ge hs.agitation_le
  rw [wholeTick_agitationDirection]
  refine ⟨fun hbelow => ?_, fun habove => ?_, nextDirection_of_between hp⟩
  · have hdir := nextDirection_of_lt_min hp hbelow
    exact ⟨hdir, by omega⟩
  · have hdir := nextDirection_of_max_lt hp habove
    exact ⟨hdir, by omega⟩

/-! ## The positions (42_physics R104, R105) -/

/-- 42_physics R104 on one axis. -/
theorem integrate_toInt (center mov vel : Word) :
    (integrate center mov vel).toInt =
      Int.bmod (center.toInt + mov.toInt + vel.toInt / 4) 65536 := by
  rw [integrate, s16_toInt, asr2_toInt]

/-- Settles O11: both axes are integrated alike. -/
theorem integResult : Obligations.IntegResult := fun s =>
  ⟨integPosition s, exec_integ s, rfl, integrate_toInt s.centerX s.movX s.velX,
    integrate_toInt s.centerY s.movY s.velY⟩

/-- Settles O12: both axes saturate alike. -/
theorem clampResult : Obligations.ClampResult := fun s hdev =>
  ⟨clampPosition s, exec_clamp s, rfl, clampAxis_toInt hdev s.centerX,
    clampAxis_toInt hdev s.centerY⟩

/-! ## The velocities (42_physics R106, R107) -/

theorem dampIfDue_of_mod_ne (w : DampWidth) {t : Byte} (h : t.toNat % 4 ≠ 0) (vel : Word) :
    dampIfDue w t vel = vel :=
  if_neg (mt (dampingDue_iff t).mp h)

theorem dampIfDue_of_mod_eq (w : DampWidth) {t : Byte} (h : t.toNat % 4 = 0) (vel : Word) :
    dampIfDue w t vel = dampAxis w vel :=
  if_pos ((dampingDue_iff t).mpr h)

/-- 42_physics R107 on one axis. -/
theorem springAxis_toInt (vel center : Word) :
    (springAxis vel center).toInt = Int.bmod (vel.toInt - center.toInt) 65536 :=
  s16_toInt _

/-- The tick counter wraps at 8 bits (42_physics R106). -/
theorem dampVelocity_tickCounter_toNat (s : State) :
    (dampVelocity s).tickCounter.toNat = (s.tickCounter.toNat + 1) % 256 :=
  BitVec.toNat_add s.tickCounter 1#8

/-- DAMP tests the count it leaves (42_physics R106). -/
theorem dampVelocity_velX (s : State) : (dampVelocity s).velX =
    dampIfDue s.params.dampWidth (dampVelocity s).tickCounter s.velX := rfl

theorem dampVelocity_velY (s : State) : (dampVelocity s).velY =
    dampIfDue s.params.dampWidth (dampVelocity s).tickCounter s.velY := rfl

/-- The velocity a whole tick leaves: damped if the count is due, then pulled by the clamped
position (42_physics R100). -/
theorem wholeTick_velX (s : State) : (wholeTick s).velX =
    springAxis (dampIfDue s.params.dampWidth (wholeTick s).tickCounter s.velX)
      (wholeTick s).centerX := rfl

theorem wholeTick_velY (s : State) : (wholeTick s).velY =
    springAxis (dampIfDue s.params.dampWidth (wholeTick s).tickCounter s.velY)
      (wholeTick s).centerY := rfl

/-- Settles O13: the test reads the count DAMP leaves; both axes are damped alike. -/
theorem dampResult : Obligations.DampResult := by
  intro s hw
  refine ⟨dampVelocity s, exec_damp s, rfl, dampVelocity_tickCounter_toNat s, ?_⟩
  rw [dampVelocity_velX, dampVelocity_velY, hw]
  refine ⟨fun hcount => ?_, fun hcount => ?_⟩
  · exact ⟨dampIfDue_of_mod_ne .w16 hcount s.velX, dampIfDue_of_mod_ne .w16 hcount s.velY⟩
  · obtain ⟨hX, hboundX⟩ := dampAxis_w16 s.velX
    obtain ⟨hY, hboundY⟩ := dampAxis_w16 s.velY
    rw [dampIfDue_of_mod_eq .w16 hcount, dampIfDue_of_mod_eq .w16 hcount]
    exact ⟨hX, hY, hboundX, hboundY⟩

/-- Settles O15: both axes are pulled alike. -/
theorem springResult : Obligations.SpringResult := fun s =>
  ⟨springForce s, exec_spring s, rfl, springAxis_toInt s.velX s.centerX,
    springAxis_toInt s.velY s.centerY⟩

/-- Settles O52: the spring force of a tick acts on the damped velocity on a count that is due, and on
the old one otherwise. -/
theorem dampingOnEveryFourthTickOnly : Obligations.DampingOnEveryFourthTickOnly := by
  intro s t hw hx
  obtain rfl := eq_wholeTick_of_exec_step hx
  rw [wholeTick_velX, wholeTick_velY, springAxis_toInt, springAxis_toInt, hw]
  refine ⟨fun hcount => ?_, fun hcount => ?_⟩
  · rw [dampIfDue_of_mod_ne .w16 hcount, dampIfDue_of_mod_ne .w16 hcount]
    exact ⟨rfl, rfl⟩
  · obtain ⟨hX, -⟩ := dampAxis_w16 s.velX
    obtain ⟨hY, -⟩ := dampAxis_w16 s.velY
    rw [dampIfDue_of_mod_eq .w16 hcount, dampIfDue_of_mod_eq .w16 hcount, hX, hY]
    exact ⟨rfl, rfl⟩

/-! ## The duties (42_physics R108) -/

/-- A position within 100 gives a duty without wrapping. -/
theorem dutyOf_toNat_of_abs_le {c : Word} (h : |c.toInt| ≤ 100) :
    ((dutyOf c).toNat : Int) = 155 + c.toInt := by
  obtain ⟨lo, hi⟩ := abs_le.mp h
  exact dutyOf_toNat_of_fits lo hi

/-- Settles O16: both channels are written alike, and P_POLL is entered without a delay. -/
theorem emitResult : Obligations.EmitResult := fun s =>
  ⟨emitDuty s, exec_emit s, rfl, dutyOf_toNat s.centerX, dutyOf_toNat s.centerY,
    dutyOf_toNat_of_abs_le, dutyOf_toNat_of_abs_le⟩

end Sys2Proof.Machine
end

section
/-! Proofs of the family 43_power: what each step of the main loop and of the Power Controller writes and
leaves alone (R123 to R134), and the successor of every listed control word (R120). -/

namespace Sys2Proof.Machine

/-! ## The meaning of each operation outside P_STEP -/

section ExecMainLoopAndPower

variable (s : State)

theorem exec_poll :
    exec .poll s = .next (if pressed s then enter .outoff s else enter .delay s) := rfl
theorem exec_delay : exec .delay s = .next (countDown .step s) := rfl
theorem exec_outoff : exec .outoff s = .next (enter .drvoff { s with outEn := false }) := rfl
theorem exec_drvoff : exec .drvoff s = .next (enter .db1 { s with drvOn := false }) := rfl
theorem exec_db1 : exec .db1 s = .next (countDown .rel1 s) := rfl
theorem exec_rel1 : exec .rel1 s = .next (awaitRelease .db2 s) := rfl
theorem exec_db2 : exec .db2 s = .next (countDown .sleep s) := rfl
theorem exec_outon : exec .outon s = .next (enter .drvon { s with outEn := true }) := rfl
theorem exec_drvon : exec .drvon s = .next (enter .db3 { s with drvOn := true }) := rfl
theorem exec_db3 : exec .db3 s = .next (countDown .rel2 s) := rfl
theorem exec_rel2 : exec .rel2 s = .next (awaitRelease .delay s) := rfl

end ExecMainLoopAndPower

/-! ## The successor table (43_power R120) -/

theorem takeWake_phase (s : State) : (takeWake s).phase = phaseCode .outon := rfl

theorem countDown_ss (p : Phase) {s : State} (hss : s.ss = 0#3) : (countDown p s).ss = 0#3 := by
  obtain ⟨-, h⟩ | ⟨-, h⟩ := countDown_cases p s <;> simp [h, hss]

theorem awaitRelease_ss (p : Phase) {s : State} (hss : s.ss = 0#3) :
    (awaitRelease p s).ss = 0#3 := by
  obtain ⟨-, h⟩ | ⟨-, h⟩ := awaitRelease_cases p s <;> simp [h, hss]

/-- Outside P_STEP the sub-step stays 0: it is written by `enter` only (43_power R121). -/
theorem exec_ss_outside_tick {s u : State} {i : Instr} (hp : s.phase ≠ 0#4) (hss : s.ss = 0#3)
    (hd : decode (controlWord s) = .ok i) (hx : exec i s = .next u) : u.ss = 0#3 := by
  rcases exec_cases_outside_tick hp hd hx with
    ⟨-, rfl⟩ | ⟨-, rfl⟩ | ⟨-, rfl⟩ | ⟨-, rfl⟩ | ⟨-, rfl⟩ | ⟨-, rfl⟩ | ⟨-, rfl⟩ | ⟨-, rfl⟩ |
    ⟨-, rfl⟩ | ⟨-, rfl⟩ | ⟨-, rfl⟩ | ⟨-, rfl⟩
  · split <;> rfl
  · exact countDown_ss _ hss
  · rfl
  · rfl
  · exact countDown_ss _ hss
  · exact awaitRelease_ss _ hss
  · exact countDown_ss _ hss
  · split
    · rfl
    · exact hss
  · rfl
  · rfl
  · exact countDown_ss _ hss
  · exact awaitRelease_ss _ hss

/-- The tick goes to its next sub-step, and from the last one to P_POLL (42_physics R101 to R108). -/
theorem exec_successor_in_tick {s u : State} {i : Instr} (hp : s.phase = 0#4)
    (hd : decode (controlWord s) = .ok i) (hx : exec i s = .next u) :
    (s.ss ≠ 7#3 ∧ u.phase = 0#4 ∧ u.ss = s.ss + 1#3) ∨
      (s.ss = 7#3 ∧ u.phase = 1#4 ∧ u.ss = 0#3) := by
  rcases exec_cases_in_tick hp hd hx with
    ⟨h, rfl⟩ | ⟨h, rfl⟩ | ⟨h, rfl⟩ | ⟨h, rfl⟩ | ⟨h, rfl⟩ | ⟨h, rfl⟩ | ⟨h, rfl⟩ | ⟨h, rfl⟩
  on_goal 8 => exact .inr ⟨h, rfl, rfl⟩
  all_goals exact .inl ⟨by simp [h], hp, by rw [h]; rfl⟩

/-- Settles O24: inside P_STEP by the sub-step, outside it by the phase the selected operation leads to,
with the sub-step 0 there. -/
theorem successorTable : Obligations.SuccessorTable := by
  intro s hl hlisted hr
  obtain ⟨i, hd⟩ := listed_decodes hlisted
  obtain ⟨u, hx⟩ := exec_next i s
  refine ⟨clockEdge u, step_of_decode hl hd hr hx, ?_⟩
  simp only [clockEdge_phase, clockEdge_ss]
  by_cases hp : s.phase = 0#4
  · rcases exec_successor_in_tick hp hd hx with ⟨hss, hphase, hnext⟩ | ⟨hss, hphase, hnext⟩ <;>
      simp [hp, hss, hphase, hnext]
  · have hss : s.ss = 0#3 := hlisted.2.resolve_left hp
    have hnext := exec_ss_outside_tick hp hss hd hx
    rcases exec_cases_outside_tick hp hd hx with
      ⟨h, rfl⟩ | ⟨h, rfl⟩ | ⟨h, rfl⟩ | ⟨h, rfl⟩ | ⟨h, rfl⟩ | ⟨h, rfl⟩ | ⟨h, rfl⟩ | ⟨h, rfl⟩ |
      ⟨h, rfl⟩ | ⟨h, rfl⟩ | ⟨h, rfl⟩ | ⟨h, rfl⟩ <;>
      simp [h, hnext, countDown_phase, awaitRelease_phase, takeWake_phase, apply_ite State.phase,
        phaseCode]

/-! ## The results of the operations (43_power R123 to R134) -/

/-- The button reads pressed at its active level (20_memory R43). -/
theorem pressed_iff (s : State) : pressed s = true ↔ (inputNow s).btn = s.params.btnActive :=
  beq_iff_eq

/-- Settles O19: the one sample decides. -/
theorem pollResult : Obligations.PollResult := by
  intro s
  by_cases h : (inputNow s).btn = s.params.btnActive
  · rw [exec_poll, if_pos h, if_pos ((pressed_iff s).mpr h)]
    rfl
  · rw [exec_poll, if_neg h, if_neg (mt (pressed_iff s).mp h)]
    rfl

theorem countDown_of_dly_eq_zero (p : Phase) {s : State} (h : s.dly = 0) :
    countDown p s = enter p s :=
  if_pos h

theorem countDown_of_dly_ne_zero (p : Phase) {s : State} (h : s.dly ≠ 0) :
    countDown p s = { s with dly := s.dly - 1 } :=
  if_neg h

/-- Settles O20: the four phases count alike and differ in the phase they leave to. -/
theorem countingPhaseResults : Obligations.CountingPhaseResults := by
  intro s
  constructor
  · intro hdly
    simp [exec_delay, exec_db1, exec_db2, exec_db3, countDown_of_dly_ne_zero _ hdly]
  · intro hdly
    simp only [exec_delay, exec_db1, exec_db2, exec_db3, countDown_of_dly_eq_zero _ hdly]
    exact ⟨rfl, rfl, rfl, rfl⟩

/-- Settles O21: each switch writes its output register and then enters its successor. -/
theorem outputSwitchResults : Obligations.OutputSwitchResults := fun s =>
  ⟨exec_outoff s, exec_drvoff s, exec_outon s, exec_drvon s⟩

section ReleaseWait

variable (p : Phase) {s : State}

theorem awaitRelease_of_pressed (h : (inputNow s).btn = s.params.btnActive) :
    awaitRelease p s = s :=
  if_pos ((pressed_iff s).mpr h)

theorem awaitRelease_of_not_pressed (h : (inputNow s).btn ≠ s.params.btnActive) :
    awaitRelease p s = enter p s :=
  if_neg (mt (pressed_iff s).mp h)

end ReleaseWait

/-- Settles O22: both waits read the sample alike and differ in the phase they leave to. -/
theorem releaseWaitResults : Obligations.ReleaseWaitResults := by
  intro s
  rw [exec_rel1, exec_rel2]
  refine ⟨fun hpressed => ?_, fun hreleased => ?_⟩
  · rw [awaitRelease_of_pressed .db2 hpressed, awaitRelease_of_pressed .delay hpressed]
    exact ⟨rfl, rfl⟩
  · rw [awaitRelease_of_not_pressed .db2 hreleased, awaitRelease_of_not_pressed .delay hreleased]
    exact ⟨rfl, rfl⟩

end Sys2Proof.Machine
end

section
/-! Proofs of the family 60_exceptions: which operation reads which input level, and that a level no
operation reads leaves no trace (R156; 20_memory R43, R44). -/

namespace Sys2Proof.Machine

/-! ## Which operation reads which level of this edge -/

/-- The operations that sample the button (20_memory R43). -/
def ReadsBtn (i : Instr) : Prop := i = .poll ∨ i = .rel1 ∨ i = .rel2

/-- A counting step reads no level of this edge: it commutes with the edge that takes them away. -/
theorem clockEdge_countDown (p : Phase) (s : State) :
    clockEdge (countDown p s) = countDown p (clockEdge s) :=
  apply_ite clockEdge _ _ _

/-- An operation that samples neither the button nor the wake reads no level of this edge: it commutes
with the edge that takes them away. -/
theorem finishEdge_exec_of_reads_nothing {i : Instr} (hbtn : ¬ ReadsBtn i) (hwake : i ≠ .sleep)
    (s : State) : finishEdge (exec i s) = exec i (clockEdge s) := by
  cases i
  case poll => exact absurd (.inl rfl) hbtn
  case rel1 => exact absurd (.inr (.inl rfl)) hbtn
  case rel2 => exact absurd (.inr (.inr rfl)) hbtn
  case sleep => exact absurd rfl hwake
  case delay => exact congrArg Host.Outcome.next (clockEdge_countDown .step s)
  case db1 => exact congrArg Host.Outcome.next (clockEdge_countDown .rel1 s)
  case db2 => exact congrArg Host.Outcome.next (clockEdge_countDown .sleep s)
  case db3 => exact congrArg Host.Outcome.next (clockEdge_countDown .rel2 s)
  all_goals rfl

/-- All that POLL takes from the levels of this edge is the one sample of the button
(43_power R123). -/
theorem finishEdge_exec_poll (s : State) : finishEdge (exec .poll s) =
    .next (if pressed s then enter .outoff (clockEdge s) else enter .delay (clockEdge s)) :=
  congrArg Host.Outcome.next (apply_ite clockEdge _ _ _)

/-- All that a release wait takes from the levels of this edge is the one sample of the button
(43_power R128, R134). -/
theorem clockEdge_awaitRelease (p : Phase) (s : State) : clockEdge (awaitRelease p s) =
    if pressed s then clockEdge s else enter p (clockEdge s) :=
  apply_ite clockEdge _ _ _

/-- All that SLEEP takes from the levels of this edge is the wake (43_power R130). -/
theorem finishEdge_exec_sleep (s : State) : finishEdge (exec .sleep s) =
    .next (if wakeNow s then takeWake (clockEdge s) else clockEdge s) :=
  congrArg Host.Outcome.next (apply_ite clockEdge _ _ _)

/-- The button is sampled in P_POLL, P_REL1 and P_REL2 only (20_memory R43). -/
theorem phase_of_readsBtn {p : BitVec 4} {ss : BitVec 3} {i : Instr} (hi : ReadsBtn i)
    (h : decode (packWord p ss) = .ok i) : p = 0x1#4 ∨ p = 0x6#4 ∨ p = 0xC#4 := by
  obtain rfl | rfl | rfl := hi
  · have hsel : p = 0x1#4 ∧ ss = 0#3 := by simpa using selected_cases h
    exact .inl hsel.1
  · have hsel : p = 0x6#4 ∧ ss = 0#3 := by simpa using selected_cases h
    exact .inr (.inl hsel.1)
  · have hsel : p = 0xC#4 ∧ ss = 0#3 := by simpa using selected_cases h
    exact .inr (.inr hsel.1)

/-- The wake is read in P_SLEEP only (20_memory R44). -/
theorem phase_of_decode_sleep {p : BitVec 4} {ss : BitVec 3}
    (h : decode (packWord p ss) = .ok .sleep) : p = 0x8#4 := by
  have hsel : p = 0x8#4 ∧ ss = 0#3 := by simpa using selected_cases h
  exact hsel.1

theorem controlWord_clockEdge (s : State) : controlWord (clockEdge s) = controlWord s := rfl

/-- A reset edge takes from the state only what is left after the levels of this edge
(70_reset R170). -/
theorem takeReset_eq_of_clockEdge (s : State) : takeReset s =
    { State.resetWith (clockEdge s).params with
      inputs := (clockEdge s).inputs, edge := (clockEdge s).edge } := rfl

/-! ## A step depends on the levels its operation reads, and on no other -/

section SameAfterEdge

/-! `s` and `t` differ in the levels of this edge at most: with these taken away they are one state. -/

variable {s t : State} (he : clockEdge s = clockEdge t)
include he

theorem clockEdge_awaitRelease_congr (p : Phase) (hb : pressed s = pressed t) :
    clockEdge (awaitRelease p s) = clockEdge (awaitRelease p t) := by
  rw [clockEdge_awaitRelease, clockEdge_awaitRelease, hb, he]

/-- The same operation gives the same result where it reads the same levels. -/
theorem finishEdge_exec_congr {i : Instr} (hbtn : ReadsBtn i → pressed s = pressed t)
    (hwake : i = .sleep → wakeNow s = wakeNow t) : finishEdge (exec i s) = finishEdge (exec i t) := by
  by_cases hi : ReadsBtn i
  · have hb := hbtn hi
    obtain rfl | rfl | rfl := hi
    · rw [finishEdge_exec_poll, finishEdge_exec_poll, hb, he]
    · exact congrArg Host.Outcome.next (clockEdge_awaitRelease_congr he .db2 hb)
    · exact congrArg Host.Outcome.next (clockEdge_awaitRelease_congr he .delay hb)
  · by_cases hsleep : i = .sleep
    · subst hsleep
      rw [finishEdge_exec_sleep, finishEdge_exec_sleep, hwake rfl, he]
    · rw [finishEdge_exec_of_reads_nothing hi hsleep, finishEdge_exec_of_reads_nothing hi hsleep, he]

/-- A clock edge reads `rst` in every phase, `btn` in P_POLL, P_REL1 and P_REL2, and `wake` in P_SLEEP;
it depends on no other level (60_exceptions R156). -/
theorem step_congr_of_read_levels (hrst : rstNow s = rstNow t)
    (hbtn : s.phase = 0x1#4 ∨ s.phase = 0x6#4 ∨ s.phase = 0xC#4 → pressed s = pressed t)
    (hwake : s.phase = 0x8#4 → wakeNow s = wakeNow t) : step s = step t := by
  have hparams : s.params = t.params := by
    rw [← clockEdge_params s, he, clockEdge_params]
  have hword : controlWord s = controlWord t := by
    rw [← controlWord_clockEdge s, he, controlWord_clockEdge]
  have hreset : takeReset s = takeReset t := by
    rw [takeReset_eq_of_clockEdge, takeReset_eq_of_clockEdge, he]
  unfold step
  rw [← hparams, ← hword, ← hrst, ← hreset]
  cases hd : decode (controlWord s) with
  | error e => rfl
  | ok i =>
    have hexec : finishEdge (exec i s) = finishEdge (exec i t) :=
      finishEdge_exec_congr he (fun hi => hbtn (phase_of_readsBtn hi hd))
        (fun hi => hwake (phase_of_decode_sleep (hi ▸ hd)))
    simp only [hexec]

end SameAfterEdge

/-- Settles O39: the two states differ in one level of this edge only, and in these phases the selected
operation does not read it. -/
theorem unreadInputsHaveNoEffect : Obligations.UnreadInputsHaveNoEffect := by
  intro s now rest b
  refine ⟨fun hsleep => ?_, fun hpoll hrel1 hrel2 => ?_⟩
  · exact step_congr_of_read_levels rfl rfl (fun _ => rfl) (fun h => absurd h hsleep)
  · have hphase : ¬(s.phase = 0x1#4 ∨ s.phase = 0x6#4 ∨ s.phase = 0xC#4) :=
      not_or.mpr ⟨hpoll, not_or.mpr ⟨hrel1, hrel2⟩⟩
    exact step_congr_of_read_levels rfl rfl (fun h => absurd h hphase) (fun _ => rfl)

end Sys2Proof.Machine
end

section
/-! PROOFS. The reset state (70_reset R171): the control word it selects, and what the core shows of its
phase. -/

namespace Sys2Proof.Machine

section ResetState

variable (p : Params)

theorem resetWith_phase : (State.resetWith p).phase = phaseCode .step := rfl
theorem resetWith_ss : (State.resetWith p).ss = 0#3 := rfl

/-- Reset selects the first sub-step of P_STEP. -/
theorem controlWord_resetWith : controlWord (State.resetWith p) = 0x00#7 := by
  rw [controlWord, resetWith_phase, resetWith_ss]
  decide

theorem decode_controlWord_resetWith : decode (controlWord (State.resetWith p)) = .ok .drawx := by
  rw [controlWord_resetWith]
  decide

theorem power_resetWith : power (State.resetWith p) = .running := by
  rw [power_eq_running_iff, resetWith_phase]
  decide

theorem stage_resetWith : stage (State.resetWith p) = some .running := by
  rw [stage, resetWith_phase]
  decide

theorem sleepReq_resetWith : sleepReq (State.resetWith p) = false := by
  rw [← Bool.not_eq_true, sleepReq_eq_true_iff, power_resetWith]
  decide

end ResetState

/-- Settles O33: every register is a parameter or a constant by definition, but for the duties, which
R108's formula gives from the positions, and what `phase` and `ss` select. -/
theorem resetStateValues : Obligations.ResetStateValues := by
  intro p s
  have hdutyA : (s.dutyA.toNat : Int) = (155 + p.rstCenterX.toInt) % 256 := dutyOf_toNat p.rstCenterX
  have hdutyB : (s.dutyB.toNat : Int) = (155 + p.rstCenterY.toInt) % 256 := dutyOf_toNat p.rstCenterY
  exact ⟨rfl, rfl, rfl, rfl, rfl, rfl, rfl, rfl, rfl, rfl, controlWord_resetWith p,
    decode_controlWord_resetWith p, rfl, rfl, rfl, hdutyA, hdutyB, power_resetWith p,
    stage_resetWith p, sleepReq_resetWith p⟩

end Sys2Proof.Machine
end

section
/-! Proofs about the control word: decoding and encoding agree (30_encoding R58, R59, R63), unlisted words
and refused configurations (R64, 93_implementation_defined), the edge that runs a word (70_reset R170), and
the stage as a function of the phase (10_state R21). -/

namespace Sys2Proof.Machine

/-! ## Decoding and encoding -/

@[simp] theorem phaseBits_packWord : ∀ (p : BitVec 4) (ss : BitVec 3), phaseBits (packWord p ss) = p := by
  decide

@[simp] theorem subStepBits_packWord :
    ∀ (p : BitVec 4) (ss : BitVec 3), subStepBits (packWord p ss) = ss := by
  decide

/-- The two fields are the whole control word: no bit is dropped (30_encoding R65). -/
theorem packWord_bits : ∀ w : ControlWord, packWord (phaseBits w) (subStepBits w) = w := by
  decide

/-- The law stated once per operation, for all of them (30_encoding R59). -/
theorem wellFormed_iff_encode_isSome : ∀ i : Instr, i.wellFormed = true ↔ (encode i).isSome = true
  | .drawx => Laws.HasWord.drawx
  | .drawy => Laws.HasWord.drawy
  | .agit => Laws.HasWord.agit
  | .integ => Laws.HasWord.integ
  | .clamp => Laws.HasWord.clamp
  | .damp => Laws.HasWord.damp
  | .spring => Laws.HasWord.spring
  | .emit => Laws.HasWord.emit
  | .poll => Laws.HasWord.poll
  | .delay => Laws.HasWord.delay
  | .outoff => Laws.HasWord.outoff
  | .drvoff => Laws.HasWord.drvoff
  | .db1 => Laws.HasWord.db1
  | .rel1 => Laws.HasWord.rel1
  | .db2 => Laws.HasWord.db2
  | .sleep => Laws.HasWord.sleep
  | .outon => Laws.HasWord.outon
  | .drvon => Laws.HasWord.drvon
  | .db3 => Laws.HasWord.db3
  | .rel2 => Laws.HasWord.rel2
  | .lfsrAdv => Laws.HasWord.lfsrAdv
  | .nextb m => Laws.HasWord.nextb m
  | .step => Laws.HasWord.step

/-- The word of an operation decodes to that operation (30_encoding R58). -/
theorem decode_of_encode {i : Instr} {w : ControlWord} (h : encode i = some w) : decode w = .ok i := by
  cases i <;> cases h <;> rfl

/-- Each row of the table holds the word of its operation (30_encoding R58). -/
theorem encode_of_mem_selectionTable : ∀ row ∈ selectionTable,
    encode row.1 = some (packWord row.2.1 row.2.2) := by
  decide

/-- A word that decodes is the word of the operation it decodes to: phase, sub-step and operation stand
in one row of the table (30_encoding R58). -/
theorem encode_of_decode {w : ControlWord} {i : Instr} (h : decode w = .ok i) : encode i = some w := by
  rw [← packWord_bits w] at h ⊢
  have hrow : (i, phaseBits w, subStepBits w) ∈ selectionTable :=
    selected_table _ _ i (by simp [h, Except.toOption])
  exact encode_of_mem_selectionTable _ hrow

/-- Only a well-formed operation is decoded (30_encoding R59). -/
theorem wellFormed_of_decode {w : ControlWord} {i : Instr} (h : decode w = .ok i) :
    i.wellFormed = true := by
  rw [wellFormed_iff_encode_isSome, encode_of_decode h]
  rfl

/-- Settles O34: the word of an operation decodes back, a word that decodes is that operation's, and an
operation has a word exactly when it is well formed. -/
theorem decodeAndEncodeAgree : Obligations.DecodeAndEncodeAgree := by
  refine ⟨fun i hi => ?_, fun w i h => ⟨encode_of_decode h, wellFormed_of_decode h⟩, fun i hi => ?_⟩
  · obtain ⟨w, hw⟩ := Option.isSome_iff_exists.mp ((wellFormed_iff_encode_isSome i).mp hi)
    exact ⟨w, hw, decode_of_encode hw⟩
  · rw [← Option.not_isSome_iff_eq_none, ← wellFormed_iff_encode_isSome, hi]
    decide

/-- Settles O35: each word is the encoding of its operation. -/
theorem wordsDecodeAsWritten : Obligations.WordsDecodeAsWritten :=
  ⟨decode_of_encode rfl, decode_of_encode rfl, decode_of_encode rfl, decode_of_encode rfl,
    decode_of_encode rfl, decode_of_encode rfl, decode_of_encode rfl, decode_of_encode rfl⟩

/-! ## Words and configurations without a run -/

/-- The three reserved codes stand for no phase (30_encoding R63). -/
theorem phaseOfCode_of_reserved : ∀ {p : BitVec 4}, 13 ≤ p.toNat → phaseOfCode p = none := by
  decide

/-- Every other code but 0 is that of a phase other than P_STEP (30_encoding R58). -/
theorem phaseOfCode_of_whole_phase : ∀ {p : BitVec 4}, 1 ≤ p.toNat → p.toNat ≤ 12 →
    ∃ q ∈ [Phase.poll, .delay, .outoff, .drvoff, .db1, .rel1, .db2, .sleep, .outon, .drvon, .db3, .rel2],
      phaseOfCode p = some q := by
  decide

/-- A phase other than P_STEP takes no sub-step but 0 (30_encoding R63). -/
theorem wholePhase_of_stray {ss : BitVec 3} (h : ss ≠ 0#3) (i : Instr) :
    wholePhase ss i = .error .straySubStep :=
  if_neg h

theorem decode_of_reserved {p : BitVec 4} (h : 13 ≤ p.toNat) (ss : BitVec 3) :
    decode (packWord p ss) = .error .reservedPhase := by
  rw [decode, phaseBits_packWord, phaseOfCode_of_reserved h]

theorem decode_of_stray {p : BitVec 4} {ss : BitVec 3} (lo : 1 ≤ p.toNat) (hi : p.toNat ≤ 12)
    (hss : ss ≠ 0#3) : decode (packWord p ss) = .error .straySubStep := by
  obtain ⟨q, hq, hp⟩ := phaseOfCode_of_whole_phase lo hi
  rw [decode, phaseBits_packWord, subStepBits_packWord, hp]
  cases q
  case step => simp at hq
  all_goals exact wholePhase_of_stray hss _

/-- An edge from a word the decoder rejects, whatever the inputs (30_encoding R64). -/
theorem step_of_decode_error {s : State} {e : DecodeError} (hl : Legal s.params)
    (hd : decode (controlWord s) = .error e) : step s = .fault (faultOf e) := by
  simp [step, hl, hd]

/-- Settles O36: the decoder rejects both kinds of unlisted words by name. -/
theorem unlistedWordsFault : Obligations.UnlistedWordsFault := fun s hl =>
  ⟨fun h => step_of_decode_error hl (decode_of_reserved h s.ss),
    fun lo hi hss => step_of_decode_error hl (decode_of_stray lo hi hss)⟩

/-- Settles O37: the step looks at the configuration before everything else. -/
theorem illegalConfigurationHasNoRun : Obligations.IllegalConfigurationHasNoRun := fun _ hl =>
  if_neg hl

/-! ## The edge and the word it runs -/

/-- An edge with `rst = 1` from a listed control word (70_reset R170). -/
theorem step_of_reset {s : State} (hl : Legal s.params) (hlisted : Listed s) (hr : rstNow s = true) :
    step s = .next (takeReset s) := by
  obtain ⟨i, hd⟩ := listed_decodes hlisted
  simp [step, hl, hd, hr]

/-- Settles O32: a listed word decodes, and then reset comes before the operation. -/
theorem resetWinsOverEverything : Obligations.ResetWinsOverEverything := fun _ hl hlisted hr =>
  step_of_reset hl hlisted hr

/-- Settles O30: of the three outcomes an operation has only the first. -/
theorem edgeRunsTheDecodedOperation : Obligations.EdgeRunsTheDecodedOperation := by
  intro s i hl hd hr
  obtain ⟨u, hu⟩ := exec_next i s
  refine ⟨wellFormed_of_decode hd, fun t ht => ?_, fun f hf => ?_, fun r href => ?_⟩
  · rw [step_of_decode hl hd hr ht, clockEdge_eq_afterEdges]
  · rw [hu] at hf
    cases hf
  · rw [hu] at href
    cases href

section PlacedWord

variable (s : State) (nbits w : Nat)

theorem controlWord_withFetchWord :
    controlWord (s.withFetchWord nbits w) = tableControlWord nbits w :=
  packWord_bits _

theorem rstNow_withFetchWord : rstNow (s.withFetchWord nbits w) = false := rfl

@[simp] theorem withFetchWord_params : (s.withFetchWord nbits w).params = s.params := rfl
@[simp] theorem withFetchWord_flame : flame (s.withFetchWord nbits w) = flame s := rfl

end PlacedWord

/-- The decoder's answer behind a table word (log 5). -/
theorem decode_of_decodeTableWord {nbits w : Nat} {i : Instr} (h : decodeTableWord nbits w = some i) :
    decode (tableControlWord nbits w) = .ok i := by
  unfold decodeTableWord at h
  cases hd : decode (tableControlWord nbits w) with
  | error e => simp [hd, Except.toOption] at h
  | ok j => simpa [hd, Except.toOption] using h

/-- Settles O31: the placed word is the control word of the edge, and `rst` is 0 at that edge. -/
theorem placedWordRunsNext : Obligations.PlacedWordRunsNext := by
  intro s nbits w i hl h
  have hd : decode (controlWord (s.withFetchWord nbits w)) = .ok i := by
    rw [controlWord_withFetchWord, decode_of_decodeTableWord h]
  refine ⟨hd, ?_, withFetchWord_flame s nbits w⟩
  obtain ⟨t, ht⟩ := exec_next i (s.withFetchWord nbits w)
  rw [step_of_decode (s := s.withFetchWord nbits w) hl hd (rstNow_withFetchWord s nbits w) ht, ht]
  rfl

/-! ## The stage (10_state R21) -/

/-- The code of the stage of each phase code (10_state R21, 30_encoding R62). -/
theorem stageCode_table : ∀ p : BitVec 4,
    ((p = 0x0#4 ∨ p = 0x1#4 ∨ p = 0x2#4) ↔
      ((phaseOfCode p).map stageOfPhase).map stageCode = some 0b00#2) ∧
    ((0x3#4 ≤ p ∧ p ≤ 0x7#4) ↔ ((phaseOfCode p).map stageOfPhase).map stageCode = some 0b01#2) ∧
    (p = 0x8#4 ↔ ((phaseOfCode p).map stageOfPhase).map stageCode = some 0b10#2) ∧
    ((0x9#4 ≤ p ∧ p ≤ 0xC#4) ↔
      ((phaseOfCode p).map stageOfPhase).map stageCode = some 0b11#2) := by
  decide

theorem powerCode_eq_one_iff (q : Power) : powerCode q = 1#1 ↔ q = .sleeping := by
  cases q <;> decide

/-- Settles O43: `stage` reads nothing but the phase, and both codes are Sleeping's in P_SLEEP. -/
theorem stageFollowsPhase : Obligations.StageFollowsPhase := by
  intro s
  obtain ⟨hrunning, hsuspending, hsleeping, hresuming⟩ := stageCode_table s.phase
  refine ⟨hrunning, hsuspending, hsleeping, hresuming, ?_⟩
  rw [powerCode_eq_one_iff, power_eq_sleeping_iff]
  exact hsleeping

end Sys2Proof.Machine
end

section
/-! Proofs about one clock edge: which register an edge may write (10_state R30, R34; 20_memory R45 to R47;
41_prng R93, R95). -/

namespace Sys2Proof.Machine

/-! ## The control word and its fields -/

theorem controlWord_eq_packWord_iff {s : State} {p : BitVec 4} {ss : BitVec 3} :
    controlWord s = packWord p ss ↔ s.phase = p ∧ s.ss = ss := by
  constructor
  · intro h
    constructor
    · rw [← phaseBits_packWord p ss, ← h, controlWord, phaseBits_packWord]
    · rw [← subStepBits_packWord p ss, ← h, controlWord, subStepBits_packWord]
  · rintro ⟨rfl, rfl⟩
    rfl

/-- A state that holds the control word of a sub-step of the tick (30_encoding R58). -/
theorem controlWord_eq_drawx_iff {s : State} : controlWord s = 0x00#7 ↔ s.phase = 0#4 ∧ s.ss = 0#3 :=
  controlWord_eq_packWord_iff (p := 0#4) (ss := 0#3)

theorem controlWord_eq_drawy_iff {s : State} : controlWord s = 0x01#7 ↔ s.phase = 0#4 ∧ s.ss = 1#3 :=
  controlWord_eq_packWord_iff (p := 0#4) (ss := 1#3)

theorem controlWord_eq_damp_iff {s : State} : controlWord s = 0x05#7 ↔ s.phase = 0#4 ∧ s.ss = 5#3 :=
  controlWord_eq_packWord_iff (p := 0#4) (ss := 5#3)

theorem controlWord_eq_emit_iff {s : State} : controlWord s = 0x07#7 ↔ s.phase = 0#4 ∧ s.ss = 7#3 :=
  controlWord_eq_packWord_iff (p := 0#4) (ss := 7#3)

/-- An edge without reset, from the phase and the sub-step it finds. -/
theorem step_of_selected {s u : State} {i : Instr} {p : BitVec 4} {ss : BitVec 3}
    (hl : Legal s.params) (hp : s.phase = p) (hss : s.ss = ss) (hd : decode (packWord p ss) = .ok i)
    (hr : rstNow s = false) (hx : exec i s = .next u) : step s = .next (clockEdge u) := by
  subst hp hss
  exact step_of_decode hl hd hr hx

/-! ## The registers each edge writes (10_state R30) -/

/-- The tick writes neither output register (10_state R30). -/
theorem exec_keeps_outputs_in_tick {s u : State} {i : Instr} (hp : s.phase = 0#4)
    (hd : decode (controlWord s) = .ok i) (hx : exec i s = .next u) :
    u.params = s.params ∧ u.outEn = s.outEn ∧ u.drvOn = s.drvOn := by
  rcases exec_cases_in_tick hp hd hx with
    ⟨-, rfl⟩ | ⟨-, rfl⟩ | ⟨-, rfl⟩ | ⟨-, rfl⟩ | ⟨-, rfl⟩ | ⟨-, rfl⟩ | ⟨-, rfl⟩ | ⟨-, rfl⟩ <;>
    exact ⟨rfl, rfl, rfl⟩

/-- The register advances once in DRAWX and DRAWY, and no other sub-step writes it (41_prng R95). -/
theorem exec_rn_in_tick {s u : State} {i : Instr} (hp : s.phase = 0#4)
    (hd : decode (controlWord s) = .ok i) (hx : exec i s = .next u) :
    u.rn = if s.ss = 0#3 ∨ s.ss = 1#3 then lfsrNext s.rn else s.rn := by
  rcases exec_cases_in_tick hp hd hx with
    ⟨h, rfl⟩ | ⟨h, rfl⟩ | ⟨h, rfl⟩ | ⟨h, rfl⟩ | ⟨h, rfl⟩ | ⟨h, rfl⟩ | ⟨h, rfl⟩ | ⟨h, rfl⟩ <;>
    rw [h] <;> rfl

/-- No sub-step before EMIT writes a duty register (20_memory R46). -/
theorem exec_keeps_duties_before_emit {s u : State} {i : Instr} (hp : s.phase = 0#4) (hss : s.ss ≠ 7#3)
    (hd : decode (controlWord s) = .ok i) (hx : exec i s = .next u) :
    u.dutyA = s.dutyA ∧ u.dutyB = s.dutyB := by
  rcases exec_cases_in_tick hp hd hx with
    ⟨-, rfl⟩ | ⟨-, rfl⟩ | ⟨-, rfl⟩ | ⟨-, rfl⟩ | ⟨-, rfl⟩ | ⟨-, rfl⟩ | ⟨-, rfl⟩ | ⟨h, -⟩
  on_goal 8 => exact absurd h hss
  all_goals exact ⟨rfl, rfl⟩

section EdgeWithoutReset

variable {s t : State} (hr : rstNow s = false) (h : step s = .next t)
include hr h

theorem step_keeps_params : t.params = s.params := by
  by_cases hp : s.phase = 0#4
  · obtain ⟨i, u, hd, hx, rfl⟩ := step_cases_of_no_reset hr h
    exact (exec_keeps_outputs_in_tick hp hd hx).1
  · exact (step_keeps_flame_outside_tick hp hr h).1

/-- 41_prng R95. -/
theorem step_rn :
    t.rn = if controlWord s = 0x00#7 ∨ controlWord s = 0x01#7 then lfsrNext s.rn else s.rn := by
  simp only [controlWord_eq_drawx_iff, controlWord_eq_drawy_iff]
  by_cases hp : s.phase = 0#4
  · obtain ⟨i, u, hd, hx, rfl⟩ := step_cases_of_no_reset hr h
    simpa [hp] using exec_rn_in_tick hp hd hx
  · have hrn : t.rn = s.rn := congrArg Flame.rn (step_keeps_flame_outside_tick hp hr h).2
    simp [hp, hrn]

/-- 20_memory R45: the duties change in EMIT only. -/
theorem step_keeps_duties (hw : controlWord s ≠ 0x07#7) : t.dutyA = s.dutyA ∧ t.dutyB = s.dutyB := by
  by_cases hp : s.phase = 0#4
  · have hss : s.ss ≠ 7#3 := fun hss => hw (controlWord_eq_emit_iff.mpr ⟨hp, hss⟩)
    obtain ⟨i, u, hd, hx, rfl⟩ := step_cases_of_no_reset hr h
    have hduties : u.dutyA = s.dutyA ∧ u.dutyB = s.dutyB :=
      exec_keeps_duties_before_emit hp hss hd hx
    exact hduties
  · have hflame := (step_keeps_flame_outside_tick hp hr h).2
    exact ⟨congrArg Flame.dutyA hflame, congrArg Flame.dutyB hflame⟩

end EdgeWithoutReset

/-- Settles O38: the tick writes no output register, and the other phases no flame data. -/
theorem eachComponentWritesItsOwnState : Obligations.EachComponentWritesItsOwnState := by
  intro s t hr h
  refine ⟨step_keeps_params hr h, fun hp => ?_,
    fun hp => (step_keeps_flame_outside_tick hp hr h).2, step_rn hr h⟩
  obtain ⟨i, u, hd, hx, rfl⟩ := step_cases_of_no_reset hr h
  exact (exec_keeps_outputs_in_tick hp hd hx).2

/-! ## The ports (20_memory R45 to R47, R50) -/

/-- The sleep request is a function of the phase (20_memory R41). -/
theorem sleepReq_eq_decide (s : State) : sleepReq s = decide (s.phase = 0x8#4) := by
  rw [Bool.eq_iff_iff, sleepReq_eq_true_iff, power_eq_sleeping_iff, decide_eq_true_iff]

/-- The output ports show the two duties, the two output registers and the sleep request. -/
theorem outPorts_congr {s t : State} (hduty : t.dutyA = s.dutyA ∧ t.dutyB = s.dutyB)
    (hout : t.outEn = s.outEn ∧ t.drvOn = s.drvOn) (hsleep : sleepReq t = sleepReq s) :
    outPorts t = outPorts s := by
  simp [outPorts, hduty, hout, hsleep]

/-- Settles O40: only EMIT writes the duties, and the sub-steps before it stay in P_STEP. -/
theorem dutyPortsChangeInEmitOnly : Obligations.DutyPortsChangeInEmitOnly := by
  intro s t hr h
  refine ⟨step_keeps_duties hr h, fun hw => ?_, fun hp hss => ?_⟩
  · obtain ⟨hp, hss⟩ := controlWord_eq_emit_iff.mp hw
    obtain ⟨i, u, hd, hx, rfl⟩ := step_cases_of_no_reset hr h
    have hu : u = emitDuty s := by simpa [hss] using exec_cases_in_tick hp hd hx
    subst hu
    exact ⟨dutyOf_toNat s.centerX, dutyOf_toNat s.centerY⟩
  · obtain ⟨i, u, hd, hx, rfl⟩ := step_cases_of_no_reset hr h
    have hphase : u.phase = 0#4 := by
      obtain ⟨-, hphase, -⟩ | ⟨hlast, -, -⟩ := exec_successor_in_tick hp hd hx
      · exact hphase
      · exact absurd hlast hss
    have hduties := exec_keeps_duties_before_emit hp hss hd hx
    have houtputs := (exec_keeps_outputs_in_tick hp hd hx).2
    refine outPorts_congr hduties houtputs ?_
    rw [sleepReq_eq_decide, sleepReq_eq_decide, clockEdge_phase, hphase, hp]

section OutputRegisters

variable (p : Phase) (s : State)

@[simp] theorem countDown_outEn : (countDown p s).outEn = s.outEn := by
  obtain ⟨-, h⟩ | ⟨-, h⟩ := countDown_cases p s <;> simp [h]

@[simp] theorem countDown_drvOn : (countDown p s).drvOn = s.drvOn := by
  obtain ⟨-, h⟩ | ⟨-, h⟩ := countDown_cases p s <;> simp [h]

@[simp] theorem awaitRelease_outEn : (awaitRelease p s).outEn = s.outEn := by
  obtain ⟨-, h⟩ | ⟨-, h⟩ := awaitRelease_cases p s <;> simp [h]

@[simp] theorem awaitRelease_drvOn : (awaitRelease p s).drvOn = s.drvOn := by
  obtain ⟨-, h⟩ | ⟨-, h⟩ := awaitRelease_cases p s <;> simp [h]

@[simp] theorem takeWake_outEn : (takeWake s).outEn = s.outEn := rfl
@[simp] theorem takeWake_drvOn : (takeWake s).drvOn = s.drvOn := rfl

end OutputRegisters

/-- Only the four switches write an output register, each its own (43_power R125, R126, R131, R132). -/
theorem exec_keeps_outputs {s u : State} {i : Instr} (hd : decode (controlWord s) = .ok i)
    (hx : exec i s = .next u) :
    (s.phase ≠ 0x3#4 → s.phase ≠ 0x9#4 → u.outEn = s.outEn) ∧
      (s.phase ≠ 0x4#4 → s.phase ≠ 0xA#4 → u.drvOn = s.drvOn) := by
  by_cases hp : s.phase = 0#4
  · obtain ⟨-, hout, hdrv⟩ := exec_keeps_outputs_in_tick hp hd hx
    exact ⟨fun _ _ => hout, fun _ _ => hdrv⟩
  · rcases exec_cases_outside_tick hp hd hx with
      ⟨h, rfl⟩ | ⟨h, rfl⟩ | ⟨h, rfl⟩ | ⟨h, rfl⟩ | ⟨h, rfl⟩ | ⟨h, rfl⟩ | ⟨h, rfl⟩ | ⟨h, rfl⟩ |
      ⟨h, rfl⟩ | ⟨h, rfl⟩ | ⟨h, rfl⟩ | ⟨h, rfl⟩ <;>
      simp [h, apply_ite State.outEn, apply_ite State.drvOn]

/-- The sleep request changes only where P_SLEEP is entered or left (43_power R129, R130). -/
theorem exec_keeps_sleepReq {s u : State} {i : Instr} (hd : decode (controlWord s) = .ok i)
    (hx : exec i s = .next u) (hdb2 : s.phase ≠ 0x7#4) (hsleep : s.phase ≠ 0x8#4) :
    sleepReq u = sleepReq s := by
  rw [sleepReq_eq_decide, sleepReq_eq_decide, decide_eq_decide, exec_phase_eq_sleep_iff hd hx]
  simp [hdb2, hsleep]

/-- 20_memory R47, over one edge. -/
theorem step_changes_outputs {s t : State} (hr : rstNow s = false) (h : step s = .next t) :
    (t.outEn ≠ s.outEn → s.phase = 0x3#4 ∨ s.phase = 0x9#4) ∧
      (t.drvOn ≠ s.drvOn → s.phase = 0x4#4 ∨ s.phase = 0xA#4) ∧
      (sleepReq t ≠ sleepReq s → s.phase = 0x7#4 ∨ s.phase = 0x8#4) := by
  obtain ⟨i, u, hd, hx, rfl⟩ := step_cases_of_no_reset hr h
  obtain ⟨hout, hdrv⟩ := exec_keeps_outputs hd hx
  have hsleep := exec_keeps_sleepReq hd hx
  refine ⟨fun hne => ?_, fun hne => ?_, fun hne => ?_⟩ <;> by_contra hphase <;>
    rw [not_or] at hphase
  · exact hne (hout hphase.1 hphase.2)
  · exact hne (hdrv hphase.1 hphase.2)
  · exact hne (hsleep hphase.1 hphase.2)

/-- The second of the coming edges is the first one after this edge. -/
theorem rstNow_clockEdge (s : State) : rstNow (clockEdge s) = (inputAt s 1).rst := by
  rw [rstNow, inputNow, inputAt_clockEdge]

/-- Suspend and resume take one edge per output: `out_en` first, then `drv_on`
(43_power R125, R126, R131, R132). -/
theorem two_edges_switch_outputs {s : State} (hs : Inv s) (hr : NoReset s 2)
    (hp : s.phase = 0x3#4 ∨ s.phase = 0x9#4) : ∃ t u, step s = .next t ∧ step t = .next u ∧
      t.outEn = (!s.outEn) ∧ t.drvOn = s.drvOn ∧ u.outEn = t.outEn ∧ u.drvOn = (!s.drvOn) := by
  have hr0 : rstNow s = false := hr 0 (by decide)
  have hr1 : (inputAt s 1).rst = false := hr 1 (by decide)
  obtain hp | hp := hp
  · have hss : s.ss = 0#3 := hs.listed.2.resolve_left (by simp [hp])
    obtain ⟨hout, hdrv⟩ := hs.outputs .outoff (by rw [hp]; rfl)
    refine ⟨_, _, step_of_selected hs.legal hp hss rfl hr0 (exec_outoff s),
      step_of_selected (p := 0x4#4) (ss := 0#3) hs.legal rfl rfl rfl ?_ (exec_drvoff _), ?_⟩
    · exact (rstNow_clockEdge _).trans hr1
    · simp [hout, hdrv, outEnIn, drvOnIn]
  · have hss : s.ss = 0#3 := hs.listed.2.resolve_left (by simp [hp])
    obtain ⟨hout, hdrv⟩ := hs.outputs .outon (by rw [hp]; rfl)
    refine ⟨_, _, step_of_selected hs.legal hp hss rfl hr0 (exec_outon s),
      step_of_selected (p := 0xA#4) (ss := 0#3) hs.legal rfl rfl rfl ?_ (exec_drvon _), ?_⟩
    · exact (rstNow_clockEdge _).trans hr1
    · simp [hout, hdrv, outEnIn, drvOnIn]

/-- Settles O41: which steps write the outputs, and the order of the two switches. -/
theorem outputsSwitchInOrder : Obligations.OutputsSwitchInOrder :=
  ⟨fun _ _ => step_changes_outputs, fun _ => two_edges_switch_outputs⟩

end Sys2Proof.Machine
end

section
/-! Proofs about the invariant of the machine (10_state R31 between the sub-steps, 30_encoding R63,
43_power R136, 10_state R26): it holds at reset, every clock edge keeps it, and a state within it always has
a next state (60_exceptions R150). -/

namespace Sys2Proof.Machine

/-! ## Reset and the input sequence -/

/-- The invariant speaks of no field of the environment. -/
theorem Inv.with_inputs {s : State} (hs : Inv s) (inputs : List Inputs) (edge : Nat) :
    Inv { s with inputs := inputs, edge := edge } :=
  { hs with }

theorem inv_clockEdge {s : State} (hs : Inv s) : Inv (clockEdge s) :=
  hs.with_inputs s.inputs.tail (s.edge + 1)

/-- A position within its range gives a duty within its range (42_physics R109 (d)). -/
theorem dutyOf_range {p : Params} {c : Word} (hp : buildLegal p) (h : WithinDev p c) :
    155 ≤ (dutyOf c).toNat + p.maxDev ∧ (dutyOf c).toNat ≤ 155 + p.maxDev := by
  have hduty := dutyOf_toNat_of_withinDev hp h
  obtain ⟨lo, hi⟩ := h
  omega

/-- Every phase has a listed code (30_encoding R58). -/
theorem phaseCode_toNat_le (p : Phase) : (phaseCode p).toNat ≤ 12 := by
  cases p <;> decide

theorem inv_resetWith {p : Params} (hp : Legal p) : Inv (State.resetWith p) := by
  have ht := tickInv_resetWith hp
  have houtputs : ∀ q, phaseOfCode 0#4 = some q → true = outEnIn q ∧ true = drvOnIn q := by
    rintro _ ⟨⟩
    exact ⟨rfl, rfl⟩
  have hmov : -127 ≤ (0#16).toInt ∧ (0#16).toInt ≤ 127 := by decide
  exact {
    legal := hp
    listed := ⟨phaseCode_toNat_le .step, .inl rfl⟩
    agitation_ge := ht.agitation_ge
    agitation_le := ht.agitation_le
    direction := ht.direction
    movX_range := hmov
    movY_range := hmov
    center_within := fun _ => ⟨ht.centerX_within, ht.centerY_within⟩
    duty_eq := fun _ => ⟨ht.dutyA_eq, ht.dutyB_eq⟩
    dutyA_range := dutyOf_range hp.1 ht.centerX_within
    dutyB_range := dutyOf_range hp.1 ht.centerY_within
    outputs := houtputs
    dly_bound := fun _ _ => Nat.zero_le _ }

/-- Settles O47: the tick invariants at reset, with the control registers as reset leaves them. -/
theorem invariantHoldsAtEveryLegalReset : Obligations.InvariantHoldsAtEveryLegalReset :=
  fun _ => inv_resetWith

/-- Settles O46: the default parameters are legal. -/
theorem invariantHoldsAtReset : Obligations.InvariantHoldsAtReset :=
  inv_resetWith (p := Config.default) (by decide)

theorem inv_takeReset {s : State} (hs : Inv s) : Inv (takeReset s) :=
  (inv_resetWith hs.legal).with_inputs s.inputs.tail (s.edge + 1)

/-! ## Outside P_STEP: the control registers fit the phase -/

/-- The control registers hold what phase `p` has in them: sub-step 0, the outputs of 43_power R136 and a
delay within the load of the phase (10_state R26). -/
structure ControlFits (p : Phase) (s : State) : Prop where
  phase_eq : s.phase = phaseCode p
  ss_eq : s.ss = 0#3
  outEn_eq : s.outEn = outEnIn p
  drvOn_eq : s.drvOn = drvOnIn p
  dly_le : s.dly ≤ dlyLoad s.params p

theorem phaseOfCode_phaseCode (p : Phase) : phaseOfCode (phaseCode p) = some p := by
  cases p <;> rfl

/-- What the invariant says of the control registers outside P_STEP. -/
theorem Inv.controlFits {s : State} (hs : Inv s) {p : Phase} (hp : s.phase = phaseCode p)
    (h0 : s.phase ≠ 0#4) : ControlFits p s := by
  have hcode : phaseOfCode s.phase = some p := by rw [hp, phaseOfCode_phaseCode]
  obtain ⟨hout, hdrv⟩ := hs.outputs p hcode
  exact ⟨hp, hs.listed.2.resolve_left h0, hout, hdrv, hs.dly_bound p hcode⟩

/-- Outside P_STEP the tick invariants stand unbroken. -/
theorem Inv.tickInv_outside_tick {s : State} (hs : Inv s) (h0 : s.phase ≠ 0#4) : TickInv s := by
  obtain ⟨hX, hY⟩ := hs.center_within (fun h => h0 h.1)
  obtain ⟨hA, hB⟩ := hs.duty_eq (fun h => h0 h.1)
  exact ⟨hs.legal, hX, hY, hs.agitation_ge, hs.agitation_le, hs.direction, hA, hB⟩

/-- The invariant from the tick invariants, the range of the pokes, and control registers that fit. -/
theorem inv_of_controlFits {s : State} {p : Phase} (ht : TickInv s)
    (hmovX : -127 ≤ s.movX.toInt ∧ s.movX.toInt ≤ 127) (hmovY : -127 ≤ s.movY.toInt ∧ s.movY.toInt ≤ 127)
    (hc : ControlFits p s) : Inv s := by
  have hphase : ∀ q, phaseOfCode s.phase = some q → q = p := by
    intro q hq
    rw [hc.phase_eq, phaseOfCode_phaseCode] at hq
    exact (Option.some.inj hq).symm
  have hX := ht.centerX_within
  have hY := ht.centerY_within
  have hA := ht.dutyA_eq
  have hB := ht.dutyB_eq
  exact {
    legal := ht.legal
    listed := ⟨hc.phase_eq ▸ phaseCode_toNat_le p, .inr hc.ss_eq⟩
    agitation_ge := ht.agitation_ge
    agitation_le := ht.agitation_le
    direction := ht.direction
    movX_range := hmovX
    movY_range := hmovY
    center_within := fun _ => ⟨hX, hY⟩
    duty_eq := fun _ => ⟨hA, hB⟩
    dutyA_range := by obtain ⟨lo, hi⟩ := hX; omega
    dutyB_range := by obtain ⟨lo, hi⟩ := hY; omega
    outputs := fun q hq => hphase q hq ▸ ⟨hc.outEn_eq, hc.drvOn_eq⟩
    dly_bound := fun q hq => hphase q hq ▸ hc.dly_le }

/-- Entering a phase fits it when the outputs already do (43_power R121). -/
theorem controlFits_enter {s : State} {p : Phase} (hout : s.outEn = outEnIn p)
    (hdrv : s.drvOn = drvOnIn p) : ControlFits p (enter p s) :=
  ⟨rfl, rfl, hout, hdrv, le_rfl⟩

/-- A counting step stays, or leaves to a phase with the same outputs (43_power R124). -/
theorem controlFits_countDown {s : State} {p q : Phase} (hs : ControlFits p s)
    (hout : outEnIn p = outEnIn q) (hdrv : drvOnIn p = drvOnIn q) :
    ∃ r, ControlFits r (countDown q s) := by
  obtain ⟨-, h⟩ | ⟨-, h⟩ := countDown_cases q s
  · exact ⟨q, h ▸ controlFits_enter (hs.outEn_eq.trans hout) (hs.drvOn_eq.trans hdrv)⟩
  · exact ⟨p, h ▸ { hs with dly_le := (Nat.sub_le _ _).trans hs.dly_le }⟩

/-- A release wait stays, or leaves to a phase with the same outputs (43_power R128, R134). -/
theorem controlFits_awaitRelease {s : State} {p q : Phase} (hs : ControlFits p s)
    (hout : outEnIn p = outEnIn q) (hdrv : drvOnIn p = drvOnIn q) :
    ∃ r, ControlFits r (awaitRelease q s) := by
  obtain ⟨-, h⟩ | ⟨-, h⟩ := awaitRelease_cases q s
  · rw [h]
    exact ⟨p, hs⟩
  · exact ⟨q, h ▸ controlFits_enter (hs.outEn_eq.trans hout) (hs.drvOn_eq.trans hdrv)⟩

/-- Outside P_STEP every operation leaves control registers that fit a phase: it counts, it waits, or it
enters its successor with the outputs switched for it (43_power R123 to R134). -/
theorem exec_controlFits {s u : State} {i : Instr} (hs : Inv s) (h0 : s.phase ≠ 0#4)
    (hd : decode (controlWord s) = .ok i) (hx : exec i s = .next u) : ∃ p, ControlFits p u := by
  have fits : ∀ {p}, s.phase = phaseCode p → ControlFits p s := fun hp => hs.controlFits hp h0
  rcases exec_cases_outside_tick h0 hd hx with
    ⟨h, rfl⟩ | ⟨h, rfl⟩ | ⟨h, rfl⟩ | ⟨h, rfl⟩ | ⟨h, rfl⟩ | ⟨h, rfl⟩ | ⟨h, rfl⟩ | ⟨h, rfl⟩ |
    ⟨h, rfl⟩ | ⟨h, rfl⟩ | ⟨h, rfl⟩ | ⟨h, rfl⟩
  · have hpoll : ControlFits .poll s := fits h
    split <;> exact ⟨_, controlFits_enter hpoll.outEn_eq hpoll.drvOn_eq⟩
  · exact controlFits_countDown (p := .delay) (fits h) rfl rfl
  · exact ⟨.drvoff, controlFits_enter rfl (fits (p := .outoff) h).drvOn_eq⟩
  · exact ⟨.db1, controlFits_enter (fits (p := .drvoff) h).outEn_eq rfl⟩
  · exact controlFits_countDown (p := .db1) (fits h) rfl rfl
  · exact controlFits_awaitRelease (p := .rel1) (fits h) rfl rfl
  · exact controlFits_countDown (p := .db2) (fits h) rfl rfl
  · have hsleep : ControlFits .sleep s := fits h
    split
    · exact ⟨.outon, controlFits_enter hsleep.outEn_eq hsleep.drvOn_eq⟩
    · exact ⟨.sleep, hsleep⟩
  · exact ⟨.drvon, controlFits_enter rfl (fits (p := .outon) h).drvOn_eq⟩
  · exact ⟨.db3, controlFits_enter (fits (p := .drvon) h).outEn_eq rfl⟩
  · exact controlFits_countDown (p := .db3) (fits h) rfl rfl
  · exact controlFits_awaitRelease (p := .rel2) (fits h) rfl rfl

/-- Outside P_STEP: the flame data stay, and the control registers fit a phase. -/
theorem inv_exec_outside_tick {s u : State} {i : Instr} (hs : Inv s) (h0 : s.phase ≠ 0#4)
    (hd : decode (controlWord s) = .ok i) (hx : exec i s = .next u) : Inv u := by
  have hu := exec_onlyControlChanges h0 hd hx
  have hmovX : u.movX = s.movX := congrArg Flame.movX hu.flame_eq
  have hmovY : u.movY = s.movY := congrArg Flame.movY hu.flame_eq
  obtain ⟨p, hfits⟩ := exec_controlFits hs h0 hd hx
  exact inv_of_controlFits ((hs.tickInv_outside_tick h0).of_flame_eq hu.params_eq hu.flame_eq)
    (hmovX ▸ hs.movX_range) (hmovY ▸ hs.movY_range) hfits

/-! ## Inside P_STEP: one lemma per sub-step -/

theorem inTick_of_ss {s : State} {ss : BitVec 3} {lo hi : Nat} (hp : s.phase = 0#4) (hss : s.ss = ss)
    (h : lo ≤ ss.toNat ∧ ss.toNat ≤ hi) : InTick s lo hi :=
  ⟨hp, hss ▸ h⟩

section SubSteps

variable {s : State} (hs : Inv s) (hp : s.phase = 0#4)
include hs hp

theorem inv_drawX (hss : s.ss = 0#3) : Inv (drawX s) :=
  { hs with
    listed := ⟨hs.listed.1, .inl hp⟩
    movX_range := poke_range s
    center_within := fun _ => hs.center_within (by simp [InTick, hss])
    duty_eq := fun _ => hs.duty_eq (by simp [InTick, hss]) }

theorem inv_drawY (hss : s.ss = 1#3) : Inv (drawY s) :=
  { hs with
    listed := ⟨hs.listed.1, .inl hp⟩
    movY_range := poke_range s
    center_within := fun _ => hs.center_within (by simp [InTick, hss])
    duty_eq := fun _ => hs.duty_eq (by simp [InTick, hss]) }

theorem inv_agitate (hss : s.ss = 2#3) : Inv (agitate s) := by
  obtain ⟨hge, hle⟩ :=
    agitate_agitation_bounds hs.legal.1 hs.direction hs.agitation_ge hs.agitation_le
  exact { hs with
    listed := ⟨hs.listed.1, .inl hp⟩
    agitation_ge := hge
    agitation_le := hle
    direction := nextDirection_toInt hs.legal.1 hs.direction
    center_within := fun _ => hs.center_within (by simp [InTick, hss])
    duty_eq := fun _ => hs.duty_eq (by simp [InTick, hss]) }

/-- After INTEG the invariant asks nothing of the positions. -/
theorem inv_integPosition : Inv (integPosition s) :=
  { hs with
    listed := ⟨hs.listed.1, .inl hp⟩
    center_within := fun h => (h (inTick_of_ss (ss := 4#3) hp rfl (by decide))).elim
    duty_eq := fun h => (h (inTick_of_ss (ss := 4#3) hp rfl (by decide))).elim }

/-- CLAMP brings the positions back into their range, whatever INTEG left. -/
theorem inv_clampPosition : Inv (clampPosition s) :=
  { hs with
    listed := ⟨hs.listed.1, .inl hp⟩
    center_within := fun _ => ⟨clampAxis_withinDev hs.legal.1 _, clampAxis_withinDev hs.legal.1 _⟩
    duty_eq := fun h => (h (inTick_of_ss (ss := 5#3) hp rfl (by decide))).elim }

theorem inv_dampVelocity (hss : s.ss = 5#3) : Inv (dampVelocity s) :=
  { hs with
    listed := ⟨hs.listed.1, .inl hp⟩
    center_within := fun _ => hs.center_within (by simp [InTick, hss])
    duty_eq := fun h => (h (inTick_of_ss (ss := 6#3) hp rfl (by decide))).elim }

theorem inv_springForce (hss : s.ss = 6#3) : Inv (springForce s) :=
  { hs with
    listed := ⟨hs.listed.1, .inl hp⟩
    center_within := fun _ => hs.center_within (by simp [InTick, hss])
    duty_eq := fun h => (h (inTick_of_ss (ss := 7#3) hp rfl (by decide))).elim }

/-- EMIT writes the duties of clamped positions and leaves the tick with the outputs still on. -/
theorem inv_emitDuty (hss : s.ss = 7#3) : Inv (emitDuty s) := by
  obtain ⟨hX, hY⟩ := hs.center_within (by simp [InTick, hss])
  obtain ⟨hout, hdrv⟩ := hs.outputs .step (by rw [hp]; rfl)
  have ht : TickInv (emitDuty s) := ⟨hs.legal, hX, hY, hs.agitation_ge, hs.agitation_le, hs.direction,
    dutyOf_toNat_of_withinDev hs.legal.1 hX, dutyOf_toNat_of_withinDev hs.legal.1 hY⟩
  exact inv_of_controlFits ht hs.movX_range hs.movY_range (controlFits_enter (p := .poll) hout hdrv)

/-- Inside P_STEP. -/
theorem inv_exec_in_tick {u : State} {i : Instr} (hd : decode (controlWord s) = .ok i)
    (hx : exec i s = .next u) : Inv u := by
  rcases exec_cases_in_tick hp hd hx with
    ⟨h, rfl⟩ | ⟨h, rfl⟩ | ⟨h, rfl⟩ | ⟨-, rfl⟩ | ⟨-, rfl⟩ | ⟨h, rfl⟩ | ⟨h, rfl⟩ | ⟨h, rfl⟩
  · exact inv_drawX hs hp h
  · exact inv_drawY hs hp h
  · exact inv_agitate hs hp h
  · exact inv_integPosition hs hp
  · exact inv_clampPosition hs hp
  · exact inv_dampVelocity hs hp h
  · exact inv_springForce hs hp h
  · exact inv_emitDuty hs hp h

end SubSteps

/-! ## Every edge and every run -/

theorem inv_exec {s u : State} {i : Instr} (hs : Inv s) (hd : decode (controlWord s) = .ok i)
    (hx : exec i s = .next u) : Inv u := by
  by_cases hp : s.phase = 0#4
  · exact inv_exec_in_tick hs hp hd hx
  · exact inv_exec_outside_tick hs hp hd hx

/-- Settles O45: a reset edge establishes the invariant, and every operation keeps it. -/
theorem everyEdgeKeepsTheInvariant : Obligations.EveryEdgeKeepsTheInvariant := by
  intro s t hs h
  obtain ⟨-, i, hd, ⟨-, rfl⟩ | ⟨-, u, hx, rfl⟩⟩ := step_cases h
  · exact inv_takeReset hs
  · exact inv_clockEdge (inv_exec hs hd hx)

/-- A state within the invariant has a next state: its configuration is legal and its control word is
listed (60_exceptions R150). -/
theorem Inv.exists_step {s : State} (hs : Inv s) : ∃ t, step s = .next t := by
  cases hr : rstNow s with
  | true => exact ⟨takeReset s, step_of_reset hs.legal hs.listed hr⟩
  | false =>
    obtain ⟨i, hd⟩ := listed_decodes hs.listed
    obtain ⟨u, hx⟩ := exec_next i s
    exact ⟨clockEdge u, step_of_decode hs.legal hd hr hx⟩

/-- Settles O48: each edge has a next state, within the invariant again. -/
theorem theMachineNeverStops : Obligations.TheMachineNeverStops := by
  intro k
  induction k with
  | zero => exact fun s hs => ⟨s, runSteps_zero s, hs⟩
  | succ k ih =>
    intro s hs
    obtain ⟨t, ht⟩ := hs.exists_step
    obtain ⟨u, hu, hinv⟩ := ih t (everyEdgeKeepsTheInvariant s t hs ht)
    exact ⟨u, by rw [runSteps_succ k ht, hu], hinv⟩

/-! ## SLEEP (43_power R130) -/

theorem exec_sleep (s : State) : exec .sleep s = .next (if wakeNow s then takeWake s else s) := rfl

theorem exec_sleep_of_no_wake {s : State} (h : (inputNow s).wake = false) :
    exec .sleep s = .next s := by
  rw [exec_sleep, if_neg (by simp [wakeNow, h])]

theorem exec_sleep_of_wake {s : State} (h : (inputNow s).wake = true) :
    exec .sleep s = .next (takeWake s) := by
  rw [exec_sleep, if_pos (by simp [wakeNow, h])]

/-- Settles O23: the wake alone decides, and the invariant has the outputs of P_SLEEP. -/
theorem sleepResult : Obligations.SleepResult := by
  intro s
  refine ⟨exec_sleep_of_no_wake, exec_sleep_of_wake, fun hs hp => ?_⟩
  have hfits : ControlFits .sleep s := hs.controlFits hp (by simp [hp])
  have hpower : power s = .sleeping := (power_eq_sleeping_iff s).mpr hp
  exact ⟨hpower, (sleepReq_eq_true_iff s).mpr hpower, hfits.outEn_eq, hfits.drvOn_eq⟩

end Sys2Proof.Machine
end

section
/-! Proofs about the velocity bound (42_physics R109 (g), `DAMPW = 16`): a damping sets it, every SPRING
since adds one MAXDEV to it, and no other operation touches it. -/

namespace Sys2Proof.Machine

/-! ## The input sequence along a run -/

/-- No operation touches the input sequence: it belongs to the environment. -/
theorem exec_keeps_inputs {s u : State} {i : Instr} (hd : decode (controlWord s) = .ok i)
    (hx : exec i s = .next u) : u.inputs = s.inputs ∧ u.edge = s.edge := by
  by_cases hp : s.phase = 0#4
  · rcases exec_cases_in_tick hp hd hx with
      ⟨-, rfl⟩ | ⟨-, rfl⟩ | ⟨-, rfl⟩ | ⟨-, rfl⟩ | ⟨-, rfl⟩ | ⟨-, rfl⟩ | ⟨-, rfl⟩ | ⟨-, rfl⟩ <;>
      exact ⟨rfl, rfl⟩
  · have hu : u = { s with
        phase := u.phase, ss := u.ss, dly := u.dly, outEn := u.outEn, drvOn := u.drvOn } :=
      exec_onlyControlChanges hp hd hx
    rw [hu]
    exact ⟨rfl, rfl⟩

/-- The input levels depend on the input sequence and the edge count alone. -/
theorem inputAt_congr {s u : State} (h : u.inputs = s.inputs ∧ u.edge = s.edge) (k : Nat) :
    inputAt u k = inputAt s k := by
  simp [inputAt, h]

/-- Without reset at the coming edges there is none at the first, nor at those after it. -/
theorem NoReset.rstNow_eq {s : State} {k : Nat} (h : NoReset s (k + 1)) : rstNow s = false :=
  h 0 (Nat.succ_pos k)

theorem NoReset.after_step {s t : State} {k : Nat} (h : NoReset s (k + 1)) (hstep : step s = .next t) :
    NoReset t k := by
  obtain ⟨i, u, hd, hx, rfl⟩ := step_cases_of_no_reset h.rstNow_eq hstep
  intro j hj
  rw [inputAt_clockEdge, inputAt_congr (exec_keeps_inputs hd hx)]
  exact h (j + 1) (Nat.succ_lt_succ hj)

/-! ## How many SPRINGs have run since the last damping -/

/-- DAMP has counted this tick and SPRING has not run yet. -/
def SpringIsNext (s : State) : Prop := s.phase = 0#4 ∧ s.ss = 6#3

theorem springsSinceDamping_of_springIsNext {s : State} (h : SpringIsNext s) :
    springsSinceDamping s = s.tickCounter.toNat % 4 :=
  congrArg (s.tickCounter.toNat % 4 + ·) (if_pos h)

theorem springsSinceDamping_of_not_springIsNext {s : State} (h : ¬ SpringIsNext s) :
    springsSinceDamping s = s.tickCounter.toNat % 4 + 1 :=
  congrArg (s.tickCounter.toNat % 4 + ·) (if_neg h)

theorem not_springIsNext_of_ss {s : State} (h : s.ss ≠ 6#3) : ¬ SpringIsNext s := fun hs => h hs.2

theorem springsSinceDamping_le (s : State) : springsSinceDamping s ≤ 4 := by
  by_cases h : SpringIsNext s
  · rw [springsSinceDamping_of_springIsNext h]
    omega
  · rw [springsSinceDamping_of_not_springIsNext h]
    omega

/-- A SPRING counts itself. -/
theorem springsSinceDamping_springForce {s : State} (h : SpringIsNext s) :
    springsSinceDamping (springForce s) = springsSinceDamping s + 1 := by
  rw [springsSinceDamping_of_springIsNext h,
    springsSinceDamping_of_not_springIsNext
      (not_springIsNext_of_ss (s := springForce s) (show 7#3 ≠ 6#3 by decide))]
  rfl

/-- On a tick that does not damp, DAMP moves the SPRING to come from the count of one tick to that of the
next. -/
theorem springsSinceDamping_dampVelocity {s : State} (hp : s.phase = 0#4) (hss : s.ss = 5#3)
    (hcount : (s.tickCounter.toNat + 1) % 4 ≠ 0) :
    springsSinceDamping (dampVelocity s) = springsSinceDamping s := by
  rw [springsSinceDamping_of_springIsNext (s := dampVelocity s) ⟨hp, rfl⟩,
    springsSinceDamping_of_not_springIsNext (not_springIsNext_of_ss (by simp [hss])),
    dampVelocity_tickCounter_toNat]
  omega

/-! ## The bound over each operation -/

theorem velBound_of_abs_le {s : State} (hX : |s.velX.toInt| ≤ 32) (hY : |s.velY.toInt| ≤ 32) :
    VelBound s := by
  have hnonneg : (0 : Int) ≤ s.params.maxDev * springsSinceDamping s := by positivity
  constructor <;> omega

/-- The bound speaks of the velocities, the count of SPRINGs and MAXDEV. -/
theorem VelBound.congr {s u : State} (hs : VelBound s) (hX : u.velX = s.velX) (hY : u.velY = s.velY)
    (hp : u.params = s.params) (hn : springsSinceDamping u = springsSinceDamping s) : VelBound u := by
  unfold VelBound
  rw [hX, hY, hp, hn]
  exact hs

/-- An operation away from DAMP and SPRING that leaves velocities and count leaves the bound. -/
theorem VelBound.of_kept {s u : State} (hs : VelBound s)
    (hflame : u.velX = s.velX ∧ u.velY = s.velY ∧ u.tickCounter = s.tickCounter)
    (hp : u.params = s.params) (hss : s.ss ≠ 6#3) (hss' : u.ss ≠ 6#3) : VelBound u := by
  obtain ⟨hX, hY, hcount⟩ := hflame
  refine hs.congr hX hY hp ?_
  rw [springsSinceDamping_of_not_springIsNext (not_springIsNext_of_ss hss),
    springsSinceDamping_of_not_springIsNext (not_springIsNext_of_ss hss'), hcount]

/-- A damping brings every velocity within 32 (42_physics R106). -/
theorem velBound_dampVelocity_of_due {s : State} (hw : s.params.dampWidth = .w16)
    (hcount : (s.tickCounter.toNat + 1) % 4 = 0) : VelBound (dampVelocity s) := by
  have hdue : (dampVelocity s).tickCounter.toNat % 4 = 0 := by
    rw [dampVelocity_tickCounter_toNat]
    omega
  apply velBound_of_abs_le
  · rw [dampVelocity_velX, hw, dampIfDue_of_mod_eq .w16 hdue]
    exact (dampAxis_w16 s.velX).2
  · rw [dampVelocity_velY, hw, dampIfDue_of_mod_eq .w16 hdue]
    exact (dampAxis_w16 s.velY).2

theorem velBound_dampVelocity {s : State} (hw : s.params.dampWidth = .w16) (hs : VelBound s)
    (hp : s.phase = 0#4) (hss : s.ss = 5#3) : VelBound (dampVelocity s) := by
  by_cases hcount : (s.tickCounter.toNat + 1) % 4 = 0
  · exact velBound_dampVelocity_of_due hw hcount
  · have hdue : (dampVelocity s).tickCounter.toNat % 4 ≠ 0 := by
      rw [dampVelocity_tickCounter_toNat]
      omega
    exact hs.congr (dampIfDue_of_mod_ne _ hdue s.velX) (dampIfDue_of_mod_ne _ hdue s.velY) rfl
      (springsSinceDamping_dampVelocity hp hss hcount)

/-- One SPRING adds at most MAXDEV, and while at most three have run the sum does not wrap
(42_physics R109 (g)). -/
theorem springAxis_abs_le {v c : Word} {p : Params} {n : Nat} (hp : buildLegal p) (hn : n ≤ 3)
    (hc : WithinDev p c) (hv : |v.toInt| ≤ 32 + p.maxDev * n) :
    |(springAxis v c).toInt| ≤ 32 + p.maxDev * (n + 1 : Nat) := by
  obtain ⟨-, -, -, -, hdev⟩ := hp
  obtain ⟨lo, hi⟩ := hc
  obtain ⟨vlo, vhi⟩ := abs_le.mp hv
  have hmul : (p.maxDev : Int) * n ≤ 300 := by
    have : p.maxDev * n ≤ 100 * 3 := Nat.mul_le_mul hdev hn
    exact_mod_cast this
  have hsucc : (p.maxDev : Int) * (n + 1 : Nat) = p.maxDev * n + p.maxDev := by
    push_cast
    ring
  rw [hsucc, springAxis, s16_toInt_of_fits (by omega) (by omega), abs_le]
  omega

theorem velBound_springForce {s : State} (hs : Inv s) (hv : VelBound s) (hp : s.phase = 0#4)
    (hss : s.ss = 6#3) : VelBound (springForce s) := by
  have hn : springsSinceDamping s ≤ 3 := by
    rw [springsSinceDamping_of_springIsNext ⟨hp, hss⟩]
    omega
  obtain ⟨hX, hY⟩ := hs.center_within (by simp [InTick, hss])
  unfold VelBound
  rw [springsSinceDamping_springForce ⟨hp, hss⟩]
  exact ⟨springAxis_abs_le hs.legal.1 hn hX hv.1, springAxis_abs_le hs.legal.1 hn hY hv.2⟩

/-- Inside P_STEP. -/
theorem velBound_exec_in_tick {s u : State} {i : Instr} (hs : Inv s) (hw : s.params.dampWidth = .w16)
    (hv : VelBound s) (hp : s.phase = 0#4) (hd : decode (controlWord s) = .ok i)
    (hx : exec i s = .next u) : VelBound u := by
  rcases exec_cases_in_tick hp hd hx with
    ⟨h, rfl⟩ | ⟨h, rfl⟩ | ⟨h, rfl⟩ | ⟨h, rfl⟩ | ⟨h, rfl⟩ | ⟨h, rfl⟩ | ⟨h, rfl⟩ | ⟨h, rfl⟩
  · exact hv.of_kept ⟨rfl, rfl, rfl⟩ rfl (by simp [h]) (show 1#3 ≠ 6#3 by decide)
  · exact hv.of_kept ⟨rfl, rfl, rfl⟩ rfl (by simp [h]) (show 2#3 ≠ 6#3 by decide)
  · exact hv.of_kept ⟨rfl, rfl, rfl⟩ rfl (by simp [h]) (show 3#3 ≠ 6#3 by decide)
  · exact hv.of_kept ⟨rfl, rfl, rfl⟩ rfl (by simp [h]) (show 4#3 ≠ 6#3 by decide)
  · exact hv.of_kept ⟨rfl, rfl, rfl⟩ rfl (by simp [h]) (show 5#3 ≠ 6#3 by decide)
  · exact velBound_dampVelocity hw hv hp h
  · exact velBound_springForce hs hv hp h
  · exact hv.of_kept ⟨rfl, rfl, rfl⟩ rfl (by simp [h]) (show 0#3 ≠ 6#3 by decide)

/-- Outside P_STEP the flame data stay, and SPRING is not next on either side. -/
theorem velBound_exec_outside_tick {s u : State} {i : Instr} (hs : Inv s) (hv : VelBound s)
    (hp : s.phase ≠ 0#4) (hd : decode (controlWord s) = .ok i) (hx : exec i s = .next u) :
    VelBound u := by
  have hu := exec_onlyControlChanges hp hd hx
  have hss : s.ss = 0#3 := hs.listed.2.resolve_left hp
  have hss' : u.ss = 0#3 := exec_ss_outside_tick hp hss hd hx
  have hflame : u.velX = s.velX ∧ u.velY = s.velY ∧ u.tickCounter = s.tickCounter :=
    ⟨congrArg Flame.velX hu.flame_eq, congrArg Flame.velY hu.flame_eq,
      congrArg Flame.tickCounter hu.flame_eq⟩
  exact hv.of_kept hflame hu.params_eq (by simp [hss]) (by simp [hss'])

/-- Settles O56: DAMP resets the bound or carries it over, SPRING extends it by one MAXDEV, and the rest
leave it. -/
theorem velocityBoundIsKept : Obligations.VelocityBoundIsKept := by
  intro s t hs hw hr h
  obtain ⟨i, u, hd, hx, rfl⟩ := step_cases_of_no_reset hr h
  refine ⟨fun hv => ?_, fun hword hcount => ?_⟩
  · have hu : VelBound u := by
      by_cases hp : s.phase = 0#4
      · exact velBound_exec_in_tick hs hw hv hp hd hx
      · exact velBound_exec_outside_tick hs hv hp hd hx
    exact hu
  · obtain ⟨hp, hss⟩ := controlWord_eq_damp_iff.mp hword
    have hu : u = dampVelocity s := by simpa [hss] using exec_cases_in_tick hp hd hx
    subst hu
    exact velBound_dampVelocity_of_due hw hcount

/-! ## The bound over runs -/

/-- Four SPRINGs at most stand between two dampings. -/
theorem VelBound.abs_le {s : State} (hv : VelBound s) :
    |s.velX.toInt| ≤ 32 + 4 * (s.params.maxDev : Int) ∧
      |s.velY.toInt| ≤ 32 + 4 * (s.params.maxDev : Int) := by
  have hmul : (s.params.maxDev : Int) * springsSinceDamping s ≤ 4 * s.params.maxDev := by
    have hle := Nat.mul_le_mul_left s.params.maxDev (springsSinceDamping_le s)
    rw [Nat.mul_comm _ 4] at hle
    exact_mod_cast hle
  obtain ⟨hX, hY⟩ := hv
  constructor <;> omega

/-- Settles O57: the bound is carried along the run and read off at its end. -/
theorem velocityStaysBounded : Obligations.VelocityStaysBounded := by
  intro k
  induction k with
  | zero =>
    rintro s t - - hv - ⟨⟩
    exact hv.abs_le
  | succ k ih =>
    intro s t hs hw hv hr h
    obtain ⟨u, hu, hrest⟩ := runSteps_succ_cases h
    have hparams := step_keeps_params hr.rstNow_eq hu
    have hvu := (velocityBoundIsKept s u hs hw hr.rstNow_eq hu).1 hv
    rw [← hparams]
    exact ih u t (everyEdgeKeepsTheInvariant s u hs hu) (hparams ▸ hw) hvu (hr.after_step hu) hrest

end Sys2Proof.Machine
end

section
/-! Proofs about the PRNG: NEXTB (41_prng R91, R92), the zero register (R93), the inverse and the period of
the shift register (R94), and two advances per tick (R96). -/

namespace Sys2Proof.Machine

/-! ## NEXTB -/

theorem exec_nextb (m : Word) (s : State) : exec (.nextb m) s = .next
    { s with rn := (nextBounded m s.rn).rn, drawn := (nextBounded m s.rn).value } := rfl

/-- Settles O2: NEXTB advances as LFSR_ADV does, and scales the register it leaves. -/
theorem nextbAdvancesAndScales : Obligations.NextbAdvancesAndScales := fun s m =>
  ⟨_, exec_nextb m s, rfl, exec_lfsrAdv s, nextBounded_value_toNat m s.rn⟩

/-- Settles O3: the value is at most one below the bound, where truncated subtraction reads the bound 0
as 0. -/
theorem nextbStaysBelowBound : Obligations.NextbStaysBelowBound := by
  rintro s t m ⟨⟩
  have hle : (nextBounded m s.rn).value.toNat ≤ m.toNat - 1 := nextBounded_value_le m s.rn
  exact ⟨fun _ => hle, fun hm => hle.trans (by omega), fun hm => Nat.le_zero.mp (hle.trans (by omega))⟩

/-! ## One advance and its inverse (41_prng R94) -/

theorem shiftedOut_iff (rn : Word) : shiftedOut rn = true ↔ rn.toNat % 2 = 1 := by
  simp [shiftedOut, BitVec.getLsbD, Nat.testBit_zero]

theorem lfsrNext_of_odd {rn : Word} (h : rn.toNat % 2 = 1) :
    lfsrNext rn = xor16 (lsr rn 1) Config.tap :=
  if_pos ((shiftedOut_iff rn).mpr h)

theorem lfsrNext_of_even {rn : Word} (h : rn.toNat % 2 = 0) : lfsrNext rn = lsr rn 1 :=
  if_neg (fun hout => by have := (shiftedOut_iff rn).mp hout; omega)

/-- The bit that comes in at the top is the bit shifted out. -/
theorem lfsrNext_msb (rn : Word) : (lfsrNext rn).msb = shiftedOut rn := by
  rw [BitVec.msb_eq_getLsbD_last]
  exact lfsrNext_getLsbD_top rn

/-- Shifting left by one and filling in `b` undoes the shift that dropped `b`. -/
theorem u16_double_lsr_one {rn : Word} {b : Nat} (h : rn.toNat % 2 = b) :
    u16 ((lsr rn 1).toNat * 2 + b) = rn := by
  apply BitVec.eq_of_toNat_eq
  have hlsr := lsr_toNat rn 1
  have hrn := rn.isLt
  have hval := u16_toNat_of_fits (z := (lsr rn 1).toNat * 2 + b) (by omega) (by omega)
  omega

/-- Shifting right undoes the shift left of a word without its top bit. -/
theorem toNat_u16_double {v : Word} {b : Nat} (hv : v.msb = false) (hb : b ≤ 1) :
    (u16 (v.toNat * 2 + b)).toNat = v.toNat * 2 + b := by
  have htop := BitVec.msb_eq_false_iff_two_mul_lt.mp hv
  have hval := u16_toNat_of_fits (z := v.toNat * 2 + b) (by omega) (by omega)
  omega

theorem lsr_one_u16_double {v : Word} {b : Nat} (hv : v.msb = false) (hb : b ≤ 1) :
    lsr (u16 (v.toNat * 2 + b)) 1 = v := by
  apply BitVec.eq_of_toNat_eq
  rw [lsr_toNat, toNat_u16_double hv hb]
  omega

/-- Applying the tap mask twice is applying it not at all. -/
theorem xor16_tap_tap (v : Word) : xor16 (xor16 v Config.tap) Config.tap = v := by
  rw [xor16, xor16, BitVec.xor_assoc, BitVec.xor_self, BitVec.xor_zero]

theorem lfsrPrev_lfsrNext (rn : Word) : lfsrPrev (lfsrNext rn) = rn := by
  unfold lfsrPrev
  obtain h | h := Nat.mod_two_eq_zero_or_one rn.toNat
  · have hout : ¬ shiftedOut rn = true := fun hout => by have := (shiftedOut_iff rn).mp hout; omega
    rw [lfsrNext_msb, if_neg hout, lfsrNext_of_even h]
    exact u16_double_lsr_one h
  · rw [lfsrNext_msb, if_pos ((shiftedOut_iff rn).mpr h), lfsrNext_of_odd h, xor16_tap_tap]
    exact u16_double_lsr_one h

theorem lfsrNext_lfsrPrev (y : Word) : lfsrNext (lfsrPrev y) = y := by
  unfold lfsrPrev
  cases hy : y.msb with
  | true =>
    have hv : (xor16 y Config.tap).msb = false := by
      rw [xor16, BitVec.msb_xor, hy]
      decide
    have hodd := toNat_u16_double (b := 1) hv le_rfl
    rw [if_pos rfl, lfsrNext_of_odd (by push_cast at hodd; omega)]
    have hshift : lsr (u16 ((xor16 y Config.tap).toNat * 2 + 1)) 1 = xor16 y Config.tap :=
      lsr_one_u16_double (b := 1) hv le_rfl
    rw [hshift, xor16_tap_tap]
  | false =>
    have heven := toNat_u16_double (b := 0) hy (by decide)
    rw [if_neg Bool.false_ne_true, lfsrNext_of_even (by simp at heven; omega)]
    simpa using lsr_one_u16_double (b := 0) hy (by decide)

/-- Settles O4: the inverse shifts back, with the tap mask taken off where the top bit shows that it was
put on. -/
theorem lfsrAdvanceIsInvertible : Obligations.LfsrAdvanceIsInvertible :=
  ⟨lfsrPrev_lfsrNext, lfsrNext_lfsrPrev⟩

theorem lfsrNext_injective : Function.Injective lfsrNext :=
  Function.LeftInverse.injective lfsrPrev_lfsrNext

/-! ## The zero register (41_prng R93) -/

@[simp] theorem lfsrNext_zero : lfsrNext 0#16 = 0#16 := by decide

theorem lfsrNext_eq_zero_iff (rn : Word) : lfsrNext rn = 0#16 ↔ rn = 0#16 := by
  constructor
  · intro h
    exact lfsrNext_injective (h.trans lfsrNext_zero.symm)
  · rintro rfl
    exact lfsrNext_zero

/-- With a zero register the draw is 0 and the poke is `-h` (42_physics R101). -/
theorem poke_toInt_of_rn_zero {s : State} (h : s.rn = 0#16) :
    (poke s).toInt = -((s.agitation.toNat / 512 : Nat) : Int) := by
  simp [poke_toInt, h]

/-- Settles O6: an edge leaves the register or advances it once, and zero stays zero under both. -/
theorem zeroRegisterIsAFixedPoint : Obligations.ZeroRegisterIsAFixedPoint := by
  intro s t hr h
  refine ⟨?_, fun hrn hw => ?_, fun hrn hw => ?_⟩
  · rw [step_rn hr h]
    split
    · exact lfsrNext_eq_zero_iff s.rn
    · exact Iff.rfl
  · obtain ⟨hp, hss⟩ := controlWord_eq_drawx_iff.mp hw
    obtain ⟨i, u, hd, hx, rfl⟩ := step_cases_of_no_reset hr h
    have hu : u = drawX s := by simpa [hss] using exec_cases_in_tick hp hd hx
    subst hu
    exact poke_toInt_of_rn_zero hrn
  · obtain ⟨hp, hss⟩ := controlWord_eq_drawy_iff.mp hw
    obtain ⟨i, u, hd, hx, rfl⟩ := step_cases_of_no_reset hr h
    have hu : u = drawY s := by simpa [hss] using exec_cases_in_tick hp hd hx
    subst hu
    exact poke_toInt_of_rn_zero hrn

/-- Settles O51: a tick advances twice, in DRAWX and in DRAWY. -/
theorem twoAdvancesPerTick : Obligations.TwoAdvancesPerTick := by
  intro n
  induction n with
  | zero => exact fun s => rfl
  | succ n ih =>
    intro s
    calc (ticks (n + 1) s).rn = (ticks n (wholeTick s)).rn := rfl
      _ = lfsrIterate (2 * n) (wholeTick s).rn := ih (wholeTick s)
      _ = lfsrIterate (2 * n) (lfsrNext (lfsrNext s.rn)) := by rw [wholeTick_rn]
      _ = lfsrIterate (2 * (n + 1)) s.rn := rfl

/-! ## The period (41_prng R94)

An advance is linear over the bits, and 0x8000 runs through all the unit words in its first 16 advances.
So every word `a` is a sum of advances of 0x8000, and the same sum of advances taken of `b` combines the
two: if `a` is 0x8000 after `m` advances and `b` after `n`, it is 0x8000 after `m + n`. Repeated doubling
then finds the word after any number of advances in a few steps. -/

theorem lfsrIterate_eq_iterate (n : Nat) (rn : Word) : lfsrIterate n rn = lfsrNext^[n] rn := by
  induction n generalizing rn with
  | zero => rfl
  | succ n ih => exact ih (lfsrNext rn)

/-- An advance is linear. -/
theorem lfsrNext_xor (a b : Word) : lfsrNext (a ^^^ b) = lfsrNext a ^^^ lfsrNext b := by
  apply BitVec.eq_of_getLsbD_eq
  intro i _
  simp only [lfsrNext_getLsbD, BitVec.getLsbD_xor]
  cases Config.tap.getLsbD i <;> simp [Bool.xor_left_comm, Bool.xor_comm]

/-- The word whose first 16 advances are the unit words, from the top bit down. -/
def topUnit : Word := 0x8000#16

/-- The sum of the advances of `b` that the lowest `n` bits of `a` select, the highest of them first. -/
def sumOfAdvances : Nat → Word → Word → Word
  | 0, _, _ => 0#16
  | n + 1, a, b => (if a.getLsbD n then b else 0#16) ^^^ sumOfAdvances n a (lfsrNext b)

theorem lfsrNext_sumOfAdvances (n : Nat) (a b : Word) :
    lfsrNext (sumOfAdvances n a b) = sumOfAdvances n a (lfsrNext b) := by
  induction n generalizing b with
  | zero => exact lfsrNext_zero
  | succ n ih => rw [sumOfAdvances, lfsrNext_xor, apply_ite lfsrNext, lfsrNext_zero, ih, sumOfAdvances]

theorem iterate_sumOfAdvances (k n : Nat) (a b : Word) :
    lfsrNext^[k] (sumOfAdvances n a b) = sumOfAdvances n a (lfsrNext^[k] b) := by
  induction k generalizing b with
  | zero => rfl
  | succ k ih => rw [Function.iterate_succ_apply, lfsrNext_sumOfAdvances, ih, Function.iterate_succ_apply]

/-- An advance moves a unit word down by one bit. -/
theorem lfsrNext_twoPow_succ : ∀ n < 15,
    lfsrNext (BitVec.twoPow 16 (n + 1)) = BitVec.twoPow 16 n := by
  decide

theorem ite_twoPow_getLsbD (a : Word) {n i : Nat} (hi : i < 16) :
    (if a.getLsbD n then BitVec.twoPow 16 n else 0#16).getLsbD i =
      (decide (i = n) && a.getLsbD i) := by
  by_cases h : i = n
  · subst h
    cases a.getLsbD i <;> simp [hi]
  · cases a.getLsbD n <;> simp [BitVec.getLsbD_twoPow, h, Ne.symm h]

/-- From the unit word of bit `n` the sum has the bits of `a` up to bit `n`. -/
theorem sumOfAdvances_twoPow_getLsbD {n : Nat} (hn : n < 16) (a : Word) {i : Nat} (hi : i < 16) :
    (sumOfAdvances (n + 1) a (BitVec.twoPow 16 n)).getLsbD i = (decide (i ≤ n) && a.getLsbD i) := by
  induction n with
  | zero =>
    rw [sumOfAdvances, sumOfAdvances, BitVec.xor_zero, ite_twoPow_getLsbD a hi]
    simp
  | succ n ih =>
    rw [sumOfAdvances, lfsrNext_twoPow_succ n (by omega), BitVec.getLsbD_xor, ite_twoPow_getLsbD a hi,
      ih (by omega)]
    obtain h | rfl | h := Nat.lt_trichotomy i (n + 1)
    · simp [h.ne, h.le, Nat.lt_succ_iff.mp h]
    · simp
    · simp [h.ne', h.not_ge, show ¬ i ≤ n by omega]

theorem sumOfAdvances_topUnit (a : Word) : sumOfAdvances 16 a topUnit = a := by
  apply BitVec.eq_of_getLsbD_eq
  intro i hi
  rw [show topUnit = BitVec.twoPow 16 15 by decide, sumOfAdvances_twoPow_getLsbD (by decide) a hi,
    decide_eq_true (by omega), Bool.true_and]

/-- The advances of the top unit word add up by combining the words they lead to. -/
theorem iterate_add_topUnit (m n : Nat) : lfsrNext^[m + n] topUnit =
    sumOfAdvances 16 (lfsrNext^[n] topUnit) (lfsrNext^[m] topUnit) := by
  rw [Function.iterate_add_apply, ← iterate_sumOfAdvances, sumOfAdvances_topUnit]

/-- The word of twice as many advances of the top unit word. -/
def doubleAdvances (c : Word) : Word := sumOfAdvances 16 c c

/-- The top unit word after `n` advances, by doubling along the `k` binary digits of `n`. -/
def jump : Nat → Nat → Word
  | 0, _ => topUnit
  | k + 1, n =>
    if n % 2 = 1 then lfsrNext (doubleAdvances (jump k (n / 2))) else doubleAdvances (jump k (n / 2))

theorem jump_eq_iterate {k n : Nat} (h : n < 2 ^ k) : jump k n = lfsrNext^[n] topUnit := by
  induction k generalizing n with
  | zero =>
    obtain rfl : n = 0 := by omega
    rfl
  | succ k ih =>
    have hdouble : doubleAdvances (jump k (n / 2)) = lfsrNext^[n / 2 + n / 2] topUnit := by
      rw [ih (by omega), doubleAdvances, iterate_add_topUnit]
    rw [jump, hdouble]
    split
    · rw [← Function.iterate_succ_apply' lfsrNext]
      congr 2
      omega
    · congr 2
      omega

/-- The top unit word comes back after 65535 advances. -/
theorem topUnit_isPeriodicPt : Function.IsPeriodicPt lfsrNext 65535 topUnit := by
  have hjump : jump 16 65535 = topUnit := by decide +kernel
  rwa [jump_eq_iterate (by decide)] at hjump

/-- It does not come back after 65535 divided by one of its prime factors 3, 5, 17 and 257. -/
theorem topUnit_not_isPeriodicPt : ∀ q ∈ [3, 5, 17, 257],
    ¬ Function.IsPeriodicPt lfsrNext (65535 / q) topUnit := by
  have hjump : ∀ q ∈ [3, 5, 17, 257], jump 16 (65535 / q) ≠ topUnit := by decide +kernel
  intro q hq hper
  have hlt : 65535 / q < 2 ^ 16 := lt_of_le_of_lt (Nat.div_le_self _ _) (by decide)
  exact hjump q hq ((jump_eq_iterate hlt).trans hper)

theorem mem_of_prime_dvd_65535 {q : Nat} (hq : q.Prime) (h : q ∣ 65535) : q ∈ [3, 5, 17, 257] := by
  have hfactors : q ∣ 3 * 5 * 17 * 257 := h
  simp only [hq.dvd_mul, Nat.prime_dvd_prime_iff_eq hq (show Nat.Prime 3 by norm_num),
    Nat.prime_dvd_prime_iff_eq hq (show Nat.Prime 5 by norm_num),
    Nat.prime_dvd_prime_iff_eq hq (show Nat.Prime 17 by norm_num),
    Nat.prime_dvd_prime_iff_eq hq (show Nat.Prime 257 by norm_num)] at hfactors
  simpa [or_assoc] using hfactors

/-- A divisor of `n` that divides no `n / q` with `q` prime is `n`. -/
theorem eq_of_dvd_of_not_dvd_div_prime {m n : Nat} (hn : 0 < n) (h : m ∣ n)
    (hq : ∀ q, q.Prime → q ∣ n → ¬ m ∣ n / q) : m = n := by
  obtain ⟨c, rfl⟩ := h
  by_contra hne
  have hc : c ≠ 1 := fun hc => hne (by rw [hc, Nat.mul_one])
  have hmin := Nat.minFac_prime hc
  refine hq c.minFac hmin (Dvd.dvd.mul_left c.minFac_dvd m) ?_
  rw [Nat.mul_div_assoc m c.minFac_dvd]
  exact Nat.dvd_mul_right m _

theorem minimalPeriod_topUnit : Function.minimalPeriod lfsrNext topUnit = 65535 := by
  refine eq_of_dvd_of_not_dvd_div_prime (by decide) topUnit_isPeriodicPt.minimalPeriod_dvd ?_
  intro q hq hdvd hper
  exact topUnit_not_isPeriodicPt q (mem_of_prime_dvd_65535 hq hdvd)
    (Function.isPeriodicPt_iff_minimalPeriod_dvd.mpr hper)

/-- 1 is the top unit word after 15 advances, so it has the same period. -/
theorem minimalPeriod_one : Function.minimalPeriod lfsrNext 1#16 = 65535 := by
  have hone : lfsrNext^[15] topUnit = 1#16 := by decide +kernel
  rw [← hone, Function.minimalPeriod_apply_iterate ⟨65535, by decide, topUnit_isPeriodicPt⟩,
    minimalPeriod_topUnit]

/-- No advance of 1 is zero (41_prng R93). -/
theorem iterate_one_ne_zero (n : Nat) : lfsrNext^[n] 1#16 ≠ 0#16 := by
  induction n with
  | zero => decide
  | succ n ih =>
    rw [Function.iterate_succ_apply', ne_eq, lfsrNext_eq_zero_iff]
    exact ih

/-- The first 65535 advances of 1 are as many words as there are non-zero ones, so each is among them. -/
theorem exists_iterate_one_eq {y : Word} (hy : y ≠ 0#16) : ∃ n < 65535, lfsrNext^[n] 1#16 = y := by
  have hinj := Function.iterate_injOn_Iio_minimalPeriod (f := lfsrNext) (x := 1#16)
  rw [minimalPeriod_one] at hinj
  have hsurj := Finset.surjOn_of_injOn_of_card_le (s := Finset.range 65535) (t := Finset.Icc 1 65535)
    (fun n => (lfsrNext^[n] 1#16).toNat) ?_ ?_ (by simp)
  · have hmem : y.toNat ∈ Finset.Icc 1 65535 := by
      have hpos : y.toNat ≠ 0 := fun h => hy (BitVec.eq_of_toNat_eq h)
      have hlt := y.isLt
      rw [Finset.mem_Icc]
      omega
    obtain ⟨n, hn, hval⟩ := hsurj hmem
    exact ⟨n, by simpa using hn, BitVec.eq_of_toNat_eq hval⟩
  · intro n _
    have hpos : (lfsrNext^[n] 1#16).toNat ≠ 0 := fun h =>
      iterate_one_ne_zero n (BitVec.eq_of_toNat_eq h)
    have hlt := (lfsrNext^[n] 1#16).isLt
    exact Finset.mem_coe.mpr
      (Finset.mem_Icc.mpr ⟨Nat.pos_of_ne_zero hpos, Nat.le_of_lt_succ hlt⟩)
  · intro m hm n hn hval
    exact hinj (by simpa using hm) (by simpa using hn) (BitVec.eq_of_toNat_eq hval)

/-- Settles O5: 1 has the minimal period 65535, and its orbit fills the non-zero words. -/
theorem lfsrHasFullPeriod : Obligations.LfsrHasFullPeriod := by
  simp only [Obligations.LfsrHasFullPeriod, lfsrIterate_eq_iterate]
  refine ⟨?_, fun n hpos hlt => ?_, fun y hy => exists_iterate_one_eq hy⟩
  · have hper := Function.isPeriodicPt_minimalPeriod lfsrNext 1#16
    rwa [minimalPeriod_one] at hper
  · rw [← minimalPeriod_one] at hlt
    exact Function.not_isPeriodicPt_of_pos_of_lt_minimalPeriod hpos.ne' hlt

end Sys2Proof.Machine
end

section
/-! Proofs about the agitation, the positions and the exact damping product (42_physics R103 to R106, R109,
R113; 40_arith R78, R84), and STEP as its eight sub-steps (R100). -/

namespace Sys2Proof.Machine

/-! ## STEP (42_physics R100) -/

/-- Settles O17: `wholeTick` is the composition of the eight sub-steps, and each writes its own
registers. -/
theorem stepIsTheEightSubSteps : Obligations.StepIsTheEightSubSteps := fun s =>
  ⟨_, _, _, _, _, _, _, _, exec_drawx s, exec_drawy _, exec_agit _, exec_integ _, exec_clamp _,
    exec_damp _, exec_spring _, exec_emit _, exec_step s, rfl⟩

/-! ## DAMP with the exact product (40_arith R84) -/

/-- Settles O14: as with the rule's width, with the other product. -/
theorem dampWithExactProduct : Obligations.DampWithExactProduct := by
  intro s hw
  refine ⟨dampVelocity s, exec_damp s, rfl, dampVelocity_tickCounter_toNat s, ?_⟩
  rw [dampVelocity_velX, dampVelocity_velY, hw]
  refine ⟨fun hcount => ?_, fun hcount => ?_⟩
  · exact ⟨dampIfDue_of_mod_ne .w32 hcount s.velX, dampIfDue_of_mod_ne .w32 hcount s.velY⟩
  · rw [dampIfDue_of_mod_eq .w32 hcount, dampIfDue_of_mod_eq .w32 hcount]
    exact ⟨dampAxis_w32 s.velX, dampAxis_w32 s.velY⟩

/-! ## The agitation (42_physics R103, R109 (b)) -/

/-- Settles O10: the sum stays within 16 bits, so it is what is stored. -/
theorem agitNeverWrapsWithinBounds : Obligations.AgitNeverWrapsWithinBounds := by
  rintro s t hs ⟨⟩
  have hsum := agitate_agitation_toNat hs.legal.1 hs.direction hs.agitation_ge hs.agitation_le
  have hbounds := agitate_agitation_bounds hs.legal.1 hs.direction hs.agitation_ge hs.agitation_le
  exact ⟨hsum, hbounds⟩

/-- Ticks one after the other split anywhere. -/
theorem ticks_add (m n : Nat) (s : State) : ticks (m + n) s = ticks n (ticks m s) := by
  induction m generalizing s with
  | zero => rw [Nat.zero_add, ticks]
  | succ m ih => rw [Nat.add_right_comm, ticks, ih, ticks]

theorem ticks_succ_apply (n : Nat) (s : State) : ticks (n + 1) s = wholeTick (ticks n s) :=
  ticks_add n 1 s

theorem ticks_params (n : Nat) (s : State) : (ticks n s).params = s.params := by
  induction n with
  | zero => rfl
  | succ n ih => rw [ticks_succ_apply, wholeTick_params, ih]

theorem tickInv_ticks {s : State} (hs : TickInv s) (n : Nat) : TickInv (ticks n s) := by
  induction n with
  | zero => exact hs
  | succ n ih => exact ticks_succ_apply n s ▸ tickInv_wholeTick ih

section OneTick

variable {s : State} (hs : TickInv s)
include hs

/-- Within the tick invariants a whole tick adds its direction to the agitation, without wrapping. -/
theorem wholeTick_agitation_toNat :
    ((wholeTick s).agitation.toNat : Int) = s.agitation.toNat + (nextDirection s).toInt := by
  rw [wholeTick_agitation]
  exact agitate_agitation_toNat hs.legal.1 hs.direction hs.agitation_ge hs.agitation_le

/-- Upward, and not above the maximum: one increment up, and the direction stays. -/
theorem wholeTick_climbs (hdir : s.agitationDirection.toInt = s.params.uncalmInc)
    (hle : s.agitation.toNat ≤ s.params.maxUncalm) :
    (wholeTick s).agitation.toNat = s.agitation.toNat + s.params.uncalmInc ∧
      (wholeTick s).agitationDirection.toInt = s.params.uncalmInc := by
  have hnext : (nextDirection s).toInt = s.params.uncalmInc := by
    obtain ⟨habove, -⟩ | ⟨-, h⟩ | ⟨-, -, h⟩ := nextDirection_cases hs.legal.1
    · omega
    · exact h
    · rw [h, hdir]
  have hsum := wholeTick_agitation_toNat hs
  exact ⟨by omega, hnext⟩

/-- Downward, and not below the minimum: one increment down, and the direction stays. -/
theorem wholeTick_falls (hdir : s.agitationDirection.toInt = -(s.params.uncalmInc : Int))
    (hge : s.params.minUncalm ≤ s.agitation.toNat) :
    (wholeTick s).agitation.toNat = s.agitation.toNat - s.params.uncalmInc ∧
      (wholeTick s).agitationDirection.toInt = -(s.params.uncalmInc : Int) := by
  have hnext : (nextDirection s).toInt = -(s.params.uncalmInc : Int) := by
    obtain ⟨-, h⟩ | ⟨hbelow, -⟩ | ⟨-, -, h⟩ := nextDirection_cases hs.legal.1
    · exact h
    · omega
    · rw [h, hdir]
  have hsum := wholeTick_agitation_toNat hs
  exact ⟨by omega, hnext⟩

/-- Above the maximum the tick turns down, whatever the direction was. -/
theorem wholeTick_turns_down (habove : s.params.maxUncalm < s.agitation.toNat) :
    (wholeTick s).agitation.toNat = s.agitation.toNat - s.params.uncalmInc ∧
      (wholeTick s).agitationDirection.toInt = -(s.params.uncalmInc : Int) := by
  have hnext := nextDirection_of_max_lt hs.legal.1 habove
  have hsum := wholeTick_agitation_toNat hs
  exact ⟨by omega, hnext⟩

/-- Below the minimum the tick turns up, whatever the direction was. -/
theorem wholeTick_turns_up (hbelow : s.agitation.toNat < s.params.minUncalm) :
    (wholeTick s).agitation.toNat = s.agitation.toNat + s.params.uncalmInc ∧
      (wholeTick s).agitationDirection.toInt = s.params.uncalmInc := by
  have hnext := nextDirection_of_lt_min hs.legal.1 hbelow
  have hsum := wholeTick_agitation_toNat hs
  exact ⟨by omega, hnext⟩

end OneTick

section TriangleWave

variable {s : State} {n : Nat} (hs : TickInv s)
  (hrange : s.params.maxUncalm - s.params.minUncalm = n * s.params.uncalmInc)
include hs hrange

/-- The steps between the limits. -/
theorem maxUncalm_eq_add_mul : s.params.maxUncalm = s.params.minUncalm + n * s.params.uncalmInc := by
  have hle := hs.legal.1.1
  omega

/-- The way up: from the minimum to one step above the maximum. -/
theorem ticks_climb (hmin : s.agitation.toNat = s.params.minUncalm)
    (hup : s.agitationDirection.toInt = s.params.uncalmInc) {j : Nat} (hj : j ≤ n + 1) :
    (ticks j s).agitation.toNat = s.params.minUncalm + j * s.params.uncalmInc ∧
      (ticks j s).agitationDirection.toInt = s.params.uncalmInc := by
  induction j with
  | zero => exact ⟨by rw [Nat.zero_mul, Nat.add_zero]; exact hmin, hup⟩
  | succ j ih =>
    obtain ⟨hval, hdir⟩ := ih (by omega)
    have hmax := maxUncalm_eq_add_mul hs hrange
    have hmul : j * s.params.uncalmInc ≤ n * s.params.uncalmInc := Nat.mul_le_mul_right _ (by omega)
    have hstep := wholeTick_climbs (tickInv_ticks hs j)
    rw [ticks_params] at hstep
    obtain ⟨hnext, hdir'⟩ := hstep hdir (by omega)
    rw [ticks_succ_apply, Nat.succ_mul]
    exact ⟨by omega, hdir'⟩

/-- The way down: from one step above the maximum to one step below the minimum. -/
theorem ticks_fall (htop : s.agitation.toNat = s.params.maxUncalm + s.params.uncalmInc) {j : Nat}
    (hj : j ≤ n + 1) :
    (ticks (j + 1) s).agitation.toNat =
        s.params.maxUncalm + s.params.uncalmInc - (j + 1) * s.params.uncalmInc ∧
      (ticks (j + 1) s).agitationDirection.toInt = -(s.params.uncalmInc : Int) := by
  induction j with
  | zero =>
    have hinc := hs.legal.1.2.1
    obtain ⟨hnext, hdir⟩ := wholeTick_turns_down hs (by omega)
    rw [ticks_succ_apply]
    exact ⟨by rw [Nat.zero_add, Nat.one_mul, ← htop]; exact hnext, hdir⟩
  | succ j ih =>
    obtain ⟨hval, hdir⟩ := ih (by omega)
    have hmax := maxUncalm_eq_add_mul hs hrange
    have hmul : j * s.params.uncalmInc ≤ n * s.params.uncalmInc := Nat.mul_le_mul_right _ (by omega)
    have hstep := wholeTick_falls (tickInv_ticks hs (j + 1))
    rw [ticks_params] at hstep
    rw [Nat.succ_mul] at hval
    obtain ⟨hnext, hdir'⟩ := hstep hdir (by omega)
    rw [ticks_succ_apply, Nat.succ_mul, Nat.succ_mul]
    exact ⟨by omega, hdir'⟩

/-- The way down after the way up, counted from the minimum. -/
theorem ticks_climb_fall (hmin : s.agitation.toNat = s.params.minUncalm)
    (hup : s.agitationDirection.toInt = s.params.uncalmInc) {j : Nat} (hj : j ≤ n + 2) :
    (ticks (n + 1 + j) s).agitation.toNat =
      s.params.maxUncalm + s.params.uncalmInc - j * s.params.uncalmInc := by
  have hmax := maxUncalm_eq_add_mul hs hrange
  obtain ⟨hpeak, -⟩ := ticks_climb hs hrange hmin hup le_rfl
  rw [Nat.succ_mul] at hpeak
  cases j with
  | zero =>
    rw [Nat.add_zero, Nat.zero_mul]
    omega
  | succ j =>
    have hfall := ticks_fall (s := ticks (n + 1) s) (n := n) (tickInv_ticks hs _)
      (by rw [ticks_params]; exact hrange) (by rw [ticks_params]; omega) (j := j) (by omega)
    rw [ticks_add]
    rw [ticks_params] at hfall
    exact hfall.1

/-- One step below the minimum the wave turns up, and the next tick is back at the start. -/
theorem ticks_period (hmin : s.agitation.toNat = s.params.minUncalm)
    (hup : s.agitationDirection.toInt = s.params.uncalmInc) :
    (ticks (2 * (n + 2)) s).agitation.toNat = s.params.minUncalm ∧
      (ticks (2 * (n + 2)) s).agitationDirection.toInt = s.params.uncalmInc := by
  obtain ⟨-, hinc, hincmin, -, -⟩ := hs.legal.1
  have hmax := maxUncalm_eq_add_mul hs hrange
  have hlow := ticks_climb_fall hs hrange hmin hup (j := n + 2) le_rfl
  rw [Nat.add_mul n 2] at hlow
  have hturn := wholeTick_turns_up (tickInv_ticks hs (n + 1 + (n + 2)))
  rw [ticks_params] at hturn
  obtain ⟨hval, hdir⟩ := hturn (by omega)
  rw [show 2 * (n + 2) = n + 1 + (n + 2) + 1 by omega, ticks_succ_apply]
  exact ⟨by omega, hdir⟩

end TriangleWave

/-- Settles O54: the way up, the turn, the way down, and the turn back. -/
theorem agitationIsATriangleWave : Obligations.AgitationIsATriangleWave := by
  intro s n hs hmin hup hrange
  obtain ⟨hval, hdir⟩ := ticks_period hs hrange hmin hup
  refine ⟨fun j hj => (ticks_climb hs hrange hmin hup hj).1,
    fun j hj => ticks_climb_fall hs hrange hmin hup hj, ?_, ?_⟩
  · exact BitVec.eq_of_toNat_eq (hval.trans hmin.symm)
  · exact BitVec.eq_of_toInt_eq (hdir.trans hup.symm)

/-! ## A huge poke (42_physics R113) -/

/-- INTEG with a poke of more than twice MAXDEV and no velocity leaves the range on one side, also where
it wraps; CLAMP brings it back to the limit. -/
theorem clampAxis_integrate_of_huge_poke {p : Params} {c mov vel : Word} (hp : buildLegal p)
    (hc : WithinDev p c) (hvel : vel.toInt / 4 = 0) (hmov : 2 * (p.maxDev : Int) < |mov.toInt|) :
    (clampAxis p.maxDev (integrate c mov vel)).toInt = p.maxDev ∨
      (clampAxis p.maxDev (integrate c mov vel)).toInt = -(p.maxDev : Int) := by
  obtain ⟨-, -, -, -, hdev⟩ := hp
  obtain ⟨lo, hi⟩ := hc
  have hrange := word_toInt_range mov
  have hsum : (integrate c mov vel).toInt = Int.bmod (c.toInt + mov.toInt) 65536 := by
    rw [integrate_toInt, hvel, Int.add_zero]
  have hout : (integrate c mov vel).toInt ≤ -(p.maxDev : Int) ∨
      (p.maxDev : Int) ≤ (integrate c mov vel).toInt := by
    rw [hsum, Int.bmod_def]
    obtain h | h := lt_abs.mp hmov
    · omega
    · omega
  rw [clampAxis_toInt hdev]
  omega

/-- Settles O55: both axes are integrated and clamped alike. -/
theorem hugePokeSaturates : Obligations.HugePokeSaturates := by
  rintro s t u hs ⟨⟩ ⟨⟩
  exact ⟨clampAxis_integrate_of_huge_poke hs.legal.1 hs.centerX_within,
    clampAxis_integrate_of_huge_poke hs.legal.1 hs.centerY_within⟩

end Sys2Proof.Machine
end

section
/-! Proofs about the flame data over runs (42_physics R100, R110): the tick edge by edge, and that nothing but
whole ticks ever changes the flame data. -/

namespace Sys2Proof.Machine

/-! ## Runs, one edge more at the end -/

theorem runSteps_snoc {s t u : State} {k : Nat} (h : runSteps k s = .next t) (hstep : step t = .next u) :
    runSteps (k + 1) s = .next u := by
  rw [runSteps_add 1 h, runSteps_succ 0 hstep, runSteps_zero]

/-- A run to `u` and a run from there, where both only move the input sequence besides. -/
theorem runSteps_append {s u v : State} {j k : Nat} (h : runSteps j s = .next (afterEdges j u))
    (hrest : runSteps k (afterEdges j u) = .next (afterEdges k (afterEdges j v))) :
    runSteps (j + k) s = .next (afterEdges (j + k) v) := by
  rw [runSteps_add k h, hrest, afterEdges_afterEdges]

/-- The levels of the edge that comes after `k` others. -/
theorem inputNow_afterEdges {s u : State} (h : u.inputs = s.inputs ∧ u.edge = s.edge) (k : Nat) :
    inputNow (afterEdges k u) = inputAt s k := by
  rw [inputNow, inputAt_afterEdges, Nat.add_zero, inputAt_congr h]

/-- Without reset at the coming edges there is none at those that are left after `j` of them. -/
theorem NoReset.after_edges {s u : State} {j k n : Nat} (h : NoReset s n)
    (hu : u.inputs = s.inputs ∧ u.edge = s.edge) (hn : j + k ≤ n) : NoReset (afterEdges j u) k := by
  intro l hl
  rw [inputAt_afterEdges, inputAt_congr hu]
  exact h (j + l) (by omega)

theorem NoReset.rstNow_after {s u : State} {j n : Nat} (h : NoReset s n)
    (hu : u.inputs = s.inputs ∧ u.edge = s.edge) (hj : j < n) : rstNow (afterEdges j u) = false := by
  rw [rstNow, inputNow_afterEdges hu]
  exact h j hj

/-! ## The tick, edge by edge (42_physics R100) -/

/-- The sub-step that P_STEP runs at `ss = j` (30_encoding R58). -/
def subStep : Nat → State → State
  | 0 => drawX
  | 1 => drawY
  | 2 => agitate
  | 3 => integPosition
  | 4 => clampPosition
  | 5 => dampVelocity
  | 6 => springForce
  | _ => emitDuty

/-- The first `j` sub-steps of a tick. -/
def tickPrefix : Nat → State → State
  | 0, s => s
  | j + 1, s => subStep j (tickPrefix j s)

theorem tickPrefix_eight (s : State) : tickPrefix 8 s = wholeTick s := rfl

section SubStep

variable (j : Nat) (s : State)

theorem subStep_params : (subStep j s).params = s.params := by
  unfold subStep
  split <;> rfl

theorem subStep_inputs : (subStep j s).inputs = s.inputs ∧ (subStep j s).edge = s.edge := by
  unfold subStep
  split <;> exact ⟨rfl, rfl⟩

theorem subStep_afterEdges (k : Nat) : subStep j (afterEdges k s) = afterEdges k (subStep j s) := by
  unfold subStep
  split
  · exact drawX_afterEdges k s
  · exact drawY_afterEdges k s
  · exact agitate_afterEdges k s
  · exact integPosition_afterEdges k s
  · exact clampPosition_afterEdges k s
  · exact dampVelocity_afterEdges k s
  · exact springForce_afterEdges k s
  · exact emitDuty_afterEdges k s

/-- Before EMIT a sub-step stays in P_STEP and moves on to the next sub-step. -/
theorem subStep_control (hj : j < 7) : (subStep j s).phase = s.phase ∧ (subStep j s).ss.toNat = j + 1 := by
  interval_cases j <;> exact ⟨rfl, rfl⟩

theorem tickPrefix_params : (tickPrefix j s).params = s.params := by
  induction j with
  | zero => rfl
  | succ j ih => rw [tickPrefix, subStep_params, ih]

theorem tickPrefix_inputs : (tickPrefix j s).inputs = s.inputs ∧ (tickPrefix j s).edge = s.edge := by
  induction j with
  | zero => exact ⟨rfl, rfl⟩
  | succ j ih =>
    obtain ⟨hinputs, hedge⟩ := subStep_inputs j (tickPrefix j s)
    exact ⟨hinputs.trans ih.1, hedge.trans ih.2⟩

end SubStep

theorem tickPrefix_control {s : State} (hp : s.phase = 0#4) (hss : s.ss = 0#3) {j : Nat} (hj : j ≤ 7) :
    (tickPrefix j s).phase = 0#4 ∧ (tickPrefix j s).ss.toNat = j := by
  induction j with
  | zero => exact ⟨hp, by rw [tickPrefix, hss]; rfl⟩
  | succ j ih =>
    obtain ⟨hphase, hsub⟩ := subStep_control j (tickPrefix j s) hj
    exact ⟨hphase.trans (ih (by omega)).1, hsub⟩

/-- In P_STEP the operation selected is the sub-step at `ss`. -/
theorem exec_eq_subStep {s u : State} {i : Instr} (hp : s.phase = 0#4)
    (hd : decode (controlWord s) = .ok i) (hx : exec i s = .next u) : u = subStep s.ss.toNat s := by
  rcases exec_cases_in_tick hp hd hx with
    ⟨h, rfl⟩ | ⟨h, rfl⟩ | ⟨h, rfl⟩ | ⟨h, rfl⟩ | ⟨h, rfl⟩ | ⟨h, rfl⟩ | ⟨h, rfl⟩ | ⟨h, rfl⟩ <;>
    rw [h] <;> rfl

/-- An edge without reset in P_STEP. -/
theorem step_in_tick {s : State} (hl : Legal s.params) (hp : s.phase = 0#4) (hr : rstNow s = false) :
    step s = .next (clockEdge (subStep s.ss.toNat s)) := by
  have hlisted : Listed s := ⟨by rw [hp]; decide, .inl hp⟩
  obtain ⟨i, hd⟩ := listed_decodes hlisted
  obtain ⟨u, hx⟩ := exec_next i s
  rw [step_of_decode hl hd hr hx, exec_eq_subStep hp hd hx]

/-- `j` edges from the start of P_STEP run the first `j` sub-steps. -/
theorem runSteps_in_tick {s : State} {n j : Nat} (hl : Legal s.params) (hw : controlWord s = 0x00#7)
    (hr : NoReset s n) (hn : j ≤ n) (hj : j ≤ 8) :
    runSteps j s = .next (afterEdges j (tickPrefix j s)) := by
  obtain ⟨hp, hss⟩ := controlWord_eq_drawx_iff.mp hw
  induction j with
  | zero => exact runSteps_zero s
  | succ j ih =>
    obtain ⟨hphase, hsub⟩ := tickPrefix_control hp hss (j := j) (by omega)
    have hlegal : Legal (tickPrefix j s).params := (tickPrefix_params j s).symm ▸ hl
    have hrst : rstNow (afterEdges j (tickPrefix j s)) = false :=
      hr.rstNow_after (tickPrefix_inputs j s) (by omega)
    refine runSteps_snoc (ih (by omega) (by omega)) ?_
    rw [step_in_tick (s := afterEdges j (tickPrefix j s)) hlegal hphase hrst, afterEdges_ss, hsub,
      subStep_afterEdges, clockEdge_eq_afterEdges, afterEdges_afterEdges, tickPrefix]

/-- Settles O18: the eight edges run the eight sub-steps. -/
theorem eightEdgesMakeOneTick : Obligations.EightEdgesMakeOneTick := fun s hl hw hr =>
  ⟨wholeTick s, exec_step s, runSteps_in_tick hl hw hr le_rfl le_rfl⟩

/-! ## The flame data as a function of the flame data (42_physics R110) -/

section SameFlame

variable {s t : State} (hp : SameFlameParams s.params t.params) (hf : flame s = flame t)
include hp hf

/-- A sub-step reads no register outside the flame data and no parameter but the flame's. -/
theorem flame_subStep_congr (j : Nat) : flame (subStep j s) = flame (subStep j t) := by
  obtain ⟨hmin, hmax, hinc, hdev, hwidth⟩ := hp
  simp only [flame, Flame.mk.injEq] at hf
  obtain ⟨hrn, hcx, hcy, hvx, hvy, hag, hdir, htick, hmx, hmy, hda, hdb⟩ := hf
  have hdraw : pokeDraw s = pokeDraw t := by simp only [pokeDraw, drawBound, hag, hrn]
  have hpoke : poke s = poke t := by simp only [poke, drawOffset, hdraw, hag]
  have habove : aboveMax s = aboveMax t := by rw [aboveMax, aboveMax, hag, hmax]
  have hbelow : belowMin s = belowMin t := by rw [belowMin, belowMin, hag, hmin]
  have hnext : nextDirection s = nextDirection t := by
    simp only [nextDirection, habove, hbelow, hdir, hinc]
  unfold subStep
  split
  · simp only [flame, drawX, hdraw, hpoke, hcx, hcy, hvx, hvy, hag, hdir, htick, hmy, hda, hdb]
  · simp only [flame, drawY, hdraw, hpoke, hcx, hcy, hvx, hvy, hag, hdir, htick, hmx, hda, hdb]
  · simp only [flame, agitate, hnext, hrn, hcx, hcy, hvx, hvy, hag, htick, hmx, hmy, hda, hdb]
  · simp only [flame, integPosition, hrn, hcx, hcy, hvx, hvy, hag, hdir, htick, hmx, hmy, hda, hdb]
  · simp only [flame, clampPosition, hdev, hrn, hcx, hcy, hvx, hvy, hag, hdir, htick, hmx, hmy, hda, hdb]
  · simp only [flame, dampVelocity, hwidth, hrn, hcx, hcy, hvx, hvy, hag, hdir, htick, hmx, hmy, hda, hdb]
  · simp only [flame, springForce, hrn, hcx, hcy, hvx, hvy, hag, hdir, htick, hmx, hmy, hda, hdb]
  · rw [emitDuty, emitDuty, enter_flame, enter_flame]
    simp only [flame, hrn, hcx, hcy, hvx, hvy, hag, hdir, htick, hmx, hmy]

theorem flame_tickPrefix_congr (j : Nat) : flame (tickPrefix j s) = flame (tickPrefix j t) := by
  induction j with
  | zero => exact hf
  | succ j ih =>
    refine flame_subStep_congr ?_ ih j
    rw [tickPrefix_params, tickPrefix_params]
    exact hp

end SameFlame

/-- Settles O49: tick by tick, each tick being its eight sub-steps. -/
theorem ticksAreAFunctionOfTheFlame : Obligations.TicksAreAFunctionOfTheFlame := by
  intro n
  induction n with
  | zero => exact fun s t _ hf => hf
  | succ n ih => exact fun s t hp hf => ih _ _ hp (flame_tickPrefix_congr hp hf 8)

/-! ## Every run is whole ticks (42_physics R110, 10_state R34) -/

/-- `t` has run `n` whole ticks from `s` and, inside P_STEP, the sub-steps before the one it stands at. -/
structure TickProgress (s : State) (n : Nat) (t : State) : Prop where
  params_eq : t.params = s.params
  in_tick : t.phase = 0#4 → flame t = flame (tickPrefix t.ss.toNat (ticks n s))
  outside_tick : t.phase ≠ 0#4 → flame t = flame (ticks n s)

/-- Outside P_STEP a word that decodes has sub-step 0 (30_encoding R63). -/
theorem ss_eq_zero_of_decode {s : State} {i : Instr} (hp : s.phase ≠ 0#4)
    (hd : decode (controlWord s) = .ok i) : s.ss = 0#3 := by
  rcases selected_cases_outside_tick hp hd with
    ⟨-, -, h⟩ | ⟨-, -, h⟩ | ⟨-, -, h⟩ | ⟨-, -, h⟩ | ⟨-, -, h⟩ | ⟨-, -, h⟩ | ⟨-, -, h⟩ | ⟨-, -, h⟩ |
    ⟨-, -, h⟩ | ⟨-, -, h⟩ | ⟨-, -, h⟩ | ⟨-, -, h⟩ <;>
    exact h

section Progress

variable {s t u : State} {n : Nat} {i : Instr} (ht : TickProgress s n t)
  (hd : decode (controlWord t) = .ok i) (hx : exec i t = .next u)
include ht hd hx

/-- A sub-step is one more of the tick, and EMIT completes it. -/
theorem TickProgress.exec_in_tick (hp : t.phase = 0#4) : ∃ m ≤ n + 1, TickProgress s m u := by
  obtain rfl := exec_eq_subStep hp hd hx
  have hparams := (subStep_params t.ss.toNat t).trans ht.params_eq
  have hflame : flame (subStep t.ss.toNat t) = flame (tickPrefix (t.ss.toNat + 1) (ticks n s)) := by
    refine flame_subStep_congr ?_ (ht.in_tick hp) _
    rw [tickPrefix_params, ticks_params, ht.params_eq]
    exact ⟨rfl, rfl, rfl, rfl, rfl⟩
  obtain hss | hss := Nat.lt_or_ge t.ss.toNat 7
  · obtain ⟨hphase, hsub⟩ := subStep_control t.ss.toNat t hss
    exact ⟨n, n.le_succ, hparams, fun _ => hsub.symm ▸ hflame, fun h => absurd (hphase.trans hp) h⟩
  · have hlast : t.ss.toNat = 7 := by
      have hlt := t.ss.isLt
      omega
    rw [hlast] at hparams hflame ⊢
    have hticks : flame (subStep 7 t) = flame (ticks (n + 1) s) := by
      rw [hflame, tickPrefix_eight, ticks_succ_apply]
    exact ⟨n + 1, le_rfl, hparams, fun h => absurd h (by decide : phaseCode .poll ≠ 0#4),
      fun _ => hticks⟩

/-- An operation outside P_STEP leaves the flame data, and enters P_STEP at its start only. -/
theorem TickProgress.exec_outside_tick (hp : t.phase ≠ 0#4) : TickProgress s n u := by
  have hu := exec_onlyControlChanges hp hd hx
  have hflame : flame u = flame (ticks n s) := hu.flame_eq.trans (ht.outside_tick hp)
  have hss : u.ss = 0#3 := exec_ss_outside_tick hp (ss_eq_zero_of_decode hp hd) hd hx
  refine ⟨hu.params_eq.trans ht.params_eq, fun _ => ?_, fun _ => hflame⟩
  rw [hflame, hss]
  rfl

end Progress

theorem TickProgress.step {s t u : State} {n : Nat} (ht : TickProgress s n t) (hr : rstNow t = false)
    (h : step t = .next u) : ∃ m ≤ n + 1, TickProgress s m u := by
  obtain ⟨i, v, hd, hx, rfl⟩ := step_cases_of_no_reset hr h
  have after : ∀ {m}, TickProgress s m v → TickProgress s m (clockEdge v) := fun hv =>
    ⟨hv.params_eq, hv.in_tick, hv.outside_tick⟩
  by_cases hp : t.phase = 0#4
  · obtain ⟨m, hm, hv⟩ := ht.exec_in_tick hd hx hp
    exact ⟨m, hm, after hv⟩
  · exact ⟨n, n.le_succ, after (ht.exec_outside_tick hd hx hp)⟩

theorem TickProgress.run {s t u : State} {n k : Nat} (ht : TickProgress s n t) (hr : NoReset t k)
    (h : runSteps k t = .next u) : ∃ m ≤ n + k, TickProgress s m u := by
  induction k generalizing t n with
  | zero =>
    cases h
    exact ⟨n, le_rfl, ht⟩
  | succ k ih =>
    obtain ⟨v, hv, hrest⟩ := runSteps_succ_cases h
    obtain ⟨m, hm, hprogress⟩ := ht.step hr.rstNow_eq hv
    obtain ⟨m', hm', hu⟩ := ih hprogress (hr.after_step hv) hrest
    exact ⟨m', by omega, hu⟩

/-- Settles O50: the run starts with no tick begun, and at its end no tick is unfinished. -/
theorem everyRunIsWholeTicks : Obligations.EveryRunIsWholeTicks := by
  intro k s t hw hr h hend
  obtain ⟨hp, hss⟩ := controlWord_eq_drawx_iff.mp hw
  have hstart : TickProgress s 0 s := ⟨rfl, fun _ => by rw [hss]; rfl, fun h => absurd hp h⟩
  obtain ⟨n, hn, ht⟩ := hstart.run hr h
  refine ⟨n, by omega, ?_⟩
  by_cases hpt : t.phase = 0#4
  · rw [ht.in_tick hpt, hend.resolve_left (not_not_intro hpt)]
    rfl
  · exact ht.outside_tick hpt

end Sys2Proof.Machine
end

section
/-! Proofs about runs through the phases: the length of a counting phase (43_power R121), the waits (R140),
one trip round the main loop (70_reset R184), and the way to sleep and back (43_power R137). -/

namespace Sys2Proof.Machine

/-! ## The counting phases -/

/-- The four counting phases, each with the one phase it leaves to (43_power R124, R127, R129, R133). -/
def countingPhases : List (Phase × Phase) :=
  [(.delay, .step), (.db1, .rel1), (.db2, .sleep), (.db3, .rel2)]

/-- What a counting phase selects counts down and leaves to its successor, which loads no delay. -/
theorem exec_of_countingPhase {here there : Phase} (h : (here, there) ∈ countingPhases) :
    ∃ i, decode (packWord (phaseCode here) 0#3) = .ok i ∧
      (∀ s, exec i s = .next (countDown there s)) ∧ ∀ p, dlyLoad p there = 0 := by
  simp only [countingPhases, List.mem_cons, Prod.mk.injEq, List.not_mem_nil, or_false] at h
  obtain ⟨rfl, rfl⟩ | ⟨rfl, rfl⟩ | ⟨rfl, rfl⟩ | ⟨rfl, rfl⟩ := h
  · exact ⟨.delay, rfl, exec_delay, fun _ => rfl⟩
  · exact ⟨.db1, rfl, exec_db1, fun _ => rfl⟩
  · exact ⟨.db2, rfl, exec_db2, fun _ => rfl⟩
  · exact ⟨.db3, rfl, exec_db3, fun _ => rfl⟩

/-- `s` with the delay counter at `d`. -/
def withDly (s : State) (d : Nat) : State := { s with dly := d }

section CountingPhase

variable {s : State} {here there : Phase} (hmem : (here, there) ∈ countingPhases)
  (hl : Legal s.params) (hp : s.phase = phaseCode here) (hss : s.ss = 0#3)
include hmem hl hp hss

theorem step_of_countingPhase (hr : rstNow s = false) : step s = .next (clockEdge (countDown there s)) := by
  obtain ⟨i, hd, hx, -⟩ := exec_of_countingPhase hmem
  exact step_of_selected hl hp hss hd hr (hx s)

/-- While it counts, an edge takes one off `dly`. -/
theorem runSteps_counting (hr : NoReset s (s.dly + 1)) {j : Nat} (hj : j ≤ s.dly) :
    runSteps j s = .next (afterEdges j (withDly s (s.dly - j))) := by
  induction j with
  | zero => exact runSteps_zero s
  | succ j ih =>
    have hrst : rstNow (afterEdges j (withDly s (s.dly - j))) = false :=
      hr.rstNow_after ⟨rfl, rfl⟩ (by omega)
    have hdly : (afterEdges j (withDly s (s.dly - j))).dly ≠ 0 := Nat.sub_ne_zero_of_lt hj
    refine runSteps_snoc (ih (by omega)) ?_
    rw [step_of_countingPhase (s := afterEdges j (withDly s (s.dly - j))) hmem hl hp hss hrst,
      countDown_of_dly_ne_zero there hdly, clockEdge_eq_afterEdges]
    exact congrArg Host.Outcome.next (afterEdges_afterEdges (withDly s (s.dly - (j + 1))) j 1)

/-- The edge after `dly` others leaves. -/
theorem runSteps_counted (hr : NoReset s (s.dly + 1)) : runSteps (s.dly + 1) s =
    .next (afterEdges (s.dly + 1) { s with phase := phaseCode there, ss := 0#3, dly := 0 }) := by
  have hrst : rstNow (afterEdges s.dly (withDly s (s.dly - s.dly))) = false :=
    hr.rstNow_after ⟨rfl, rfl⟩ (by omega)
  have hdly : (afterEdges s.dly (withDly s (s.dly - s.dly))).dly = 0 := Nat.sub_self s.dly
  obtain ⟨i, -, -, hload⟩ := exec_of_countingPhase hmem
  refine runSteps_snoc (runSteps_counting hmem hl hp hss hr le_rfl) ?_
  rw [step_of_countingPhase (s := afterEdges s.dly (withDly s (s.dly - s.dly))) hmem hl hp hss hrst,
    countDown_of_dly_eq_zero there hdly, enter_afterEdges, enter, hload, clockEdge_eq_afterEdges,
    afterEdges_afterEdges]
  rfl

end CountingPhase

/-- Settles O25: `dly` edges count and one leaves. -/
theorem countingPhaseLastsLoadPlusOne : Obligations.CountingPhaseLastsLoadPlusOne :=
  fun _ _ _ hmem hl hp hss hr =>
    ⟨fun _ hj => runSteps_counting hmem hl hp hss hr hj, runSteps_counted hmem hl hp hss hr⟩

/-! ## The waits -/

/-- The edge at which nothing changes moves the input sequence only; so do any number of them. -/
theorem runSteps_of_idle {s : State} {k : Nat}
    (h : ∀ j < k, step (afterEdges j s) = .next (clockEdge (afterEdges j s))) :
    runSteps k s = .next (afterEdges k s) := by
  induction k with
  | zero => exact runSteps_zero s
  | succ k ih =>
    refine runSteps_snoc (ih fun j hj => h j (by omega)) ?_
    rw [h k (by omega), clockEdge_eq_afterEdges, afterEdges_afterEdges]

section Waits

variable {s : State} (hl : Legal s.params) (hss : s.ss = 0#3) (hr : rstNow s = false)
include hl hss hr

/-- A release wait with the button held (43_power R128, R134). -/
theorem step_of_held (hp : s.phase = phaseCode .rel1 ∨ s.phase = phaseCode .rel2)
    (hbtn : (inputNow s).btn = s.params.btnActive) : step s = .next (clockEdge s) := by
  obtain hp | hp := hp
  · exact step_of_selected (i := .rel1) hl hp hss rfl hr
      (congrArg Host.Outcome.next (awaitRelease_of_pressed .db2 hbtn))
  · exact step_of_selected (i := .rel2) hl hp hss rfl hr
      (congrArg Host.Outcome.next (awaitRelease_of_pressed .delay hbtn))

/-- Sleep without a wake (43_power R130). -/
theorem step_of_asleep (hp : s.phase = phaseCode .sleep) (hwake : (inputNow s).wake = false) :
    step s = .next (clockEdge s) :=
  step_of_selected (i := .sleep) hl hp hss rfl hr (exec_sleep_of_no_wake hwake)

end Waits

/-- Settles O26: each edge of the wait finds the level that holds it. -/
theorem waitsHaveNoTimeout : Obligations.WaitsHaveNoTimeout := by
  intro s k hl hss hr hwait
  refine runSteps_of_idle fun j hj => ?_
  have hnow : inputNow (afterEdges j s) = inputAt s j := inputNow_afterEdges ⟨rfl, rfl⟩ j
  have hrst : rstNow (afterEdges j s) = false := hr.rstNow_after ⟨rfl, rfl⟩ hj
  obtain ⟨hp, hbtn⟩ | ⟨hp, hwake⟩ := hwait
  · exact step_of_held hl hss hrst hp (by rw [hnow]; exact hbtn j hj)
  · exact step_of_asleep hl hss hrst hp (by rw [hnow]; exact hwake j hj)

/-! ## Once round the main loop (70_reset R184) -/

/-- Settles O27: eight edges of the tick, the poll, and the tick delay. -/
theorem mainLoopTripComputesOneTick : Obligations.MainLoopTripComputesOneTick := by
  intro s hl hw hr hbtn
  have htick : runSteps 8 s = .next (afterEdges 8 (wholeTick s)) :=
    runSteps_in_tick hl hw hr (by omega) le_rfl
  have hnow : inputNow (afterEdges 8 (wholeTick s)) = inputAt s 8 := inputNow_afterEdges ⟨rfl, rfl⟩ 8
  have hpoll : step (afterEdges 8 (wholeTick s)) = .next (afterEdges 9 (enter .delay (wholeTick s))) := by
    have hrst : rstNow (afterEdges 8 (wholeTick s)) = false := hr.rstNow_after ⟨rfl, rfl⟩ (by omega)
    have hreleased : ¬ pressed (afterEdges 8 (wholeTick s)) = true := by
      rw [pressed_iff, hnow]
      exact hbtn
    rw [step_of_selected (s := afterEdges 8 (wholeTick s)) (p := 0x1#4) (ss := 0#3) hl rfl rfl rfl
        hrst (exec_poll _),
      if_neg hreleased, enter_afterEdges, clockEdge_eq_afterEdges, afterEdges_afterEdges]
  have hdelay : runSteps (s.params.nTick + 1) (afterEdges 9 (enter .delay (wholeTick s))) =
      .next (afterEdges (s.params.nTick + 1)
        (afterEdges 9 { wholeTick s with phase := 0x0#4, ss := 0#3, dly := 0 })) :=
    runSteps_counted (s := afterEdges 9 (enter .delay (wholeTick s))) (here := .delay) (there := .step)
      (by decide) hl rfl rfl (hr.after_edges ⟨rfl, rfl⟩ le_rfl)
  exact ⟨wholeTick s, exec_step s, runSteps_append (runSteps_snoc htick hpoll) hdelay⟩

/-! ## The way to sleep and back (43_power R137) -/

/-- `s` with its control registers set to phase `p`, delay `d` and outputs `o` and `r`. -/
def withControl (s : State) (p : Phase) (d : Nat) (o r : Bool) : State :=
  { s with phase := phaseCode p, ss := 0#3, dly := d, outEn := o, drvOn := r }

/-- `k` edges from `s` lead to phase `p`, delay `d` and outputs `o` and `r`, and change nothing else. -/
def RunsTo (s : State) (k : Nat) (p : Phase) (d : Nat) (o r : Bool) : Prop :=
  runSteps k s = .next (afterEdges k (withControl s p d o r))

theorem runsTo_start {s : State} {p : Phase} (hp : s.phase = phaseCode p) (hss : s.ss = 0#3) :
    RunsTo s 0 p s.dly s.outEn s.drvOn := by
  have hself : withControl s p s.dly s.outEn s.drvOn = s := by rw [withControl, ← hp, ← hss]
  rw [RunsTo, hself]
  exact runSteps_zero s

section RunsTo

variable {s : State} {n k m : Nat} {p q : Phase} {d d' : Nat} {o o' r r' : Bool}
  (h : RunsTo s k p d o r) (hl : Legal s.params) (hr : NoReset s n)
include h hl hr

/-- One more edge, of the operation the phase selects. -/
theorem RunsTo.edge {i : Instr} (hk : k < n) (hd : decode (packWord (phaseCode p) 0#3) = .ok i)
    (hx : exec i (afterEdges k (withControl s p d o r)) =
      .next (afterEdges k (withControl s q d' o' r'))) : RunsTo s (k + 1) q d' o' r' := by
  have hrst : rstNow (afterEdges k (withControl s p d o r)) = false := hr.rstNow_after ⟨rfl, rfl⟩ hk
  have hstep := step_of_selected (s := afterEdges k (withControl s p d o r)) hl rfl rfl hd hrst hx
  rw [clockEdge_eq_afterEdges, afterEdges_afterEdges] at hstep
  exact runSteps_snoc h hstep

/-- A counting phase with delay `d` takes `d + 1` edges. -/
theorem RunsTo.count (hmem : (p, q) ∈ countingPhases) (hm : m = k + (d + 1)) (hn : m ≤ n) :
    RunsTo s m q 0 o r := by
  subst hm
  have hcount := runSteps_counted (s := afterEdges k (withControl s p d o r)) hmem hl rfl rfl
    (hr.after_edges (u := withControl s p d o r) ⟨rfl, rfl⟩ hn)
  exact runSteps_append (v := withControl s q 0 o r) h hcount

/-- A release wait stays for as many edges as the button is held. -/
theorem RunsTo.held (hp : p = .rel1 ∨ p = .rel2) (hn : k + m ≤ n)
    (hbtn : ∀ j < m, (inputAt s (k + j)).btn = s.params.btnActive) : RunsTo s (k + m) p d o r := by
  have hwait := waitsHaveNoTimeout (afterEdges k (withControl s p d o r)) m hl rfl
    (hr.after_edges (u := withControl s p d o r) ⟨rfl, rfl⟩ hn) (.inl ⟨hp.imp (by rintro rfl; rfl)
      (by rintro rfl; rfl), fun j hj => by
        rw [inputAt_afterEdges]
        exact hbtn j hj⟩)
  exact runSteps_append h hwait

end RunsTo

section Samples

variable {s : State} {k : Nat} {p : Phase} {d : Nat} {o r : Bool}

/-- A phase on a run reads the level of its edge. -/
theorem inputNow_withControl : inputNow (afterEdges k (withControl s p d o r)) = inputAt s k :=
  inputNow_afterEdges ⟨rfl, rfl⟩ k

theorem controlWord_withControl :
    controlWord (afterEdges k (withControl s p d o r)) = packWord (phaseCode p) 0#3 := rfl

/-- POLL with the button pressed. -/
theorem exec_poll_of_pressed (h : (inputAt s k).btn = s.params.btnActive) :
    exec .poll (afterEdges k (withControl s p d o r)) =
      .next (afterEdges k (withControl s .outoff 0 o r)) := by
  rw [exec_poll, if_pos ((pressed_iff _).mpr (by rw [inputNow_withControl]; exact h))]
  rfl

/-- A release wait with the button released. -/
theorem awaitRelease_withControl (q : Phase) (h : (inputAt s k).btn ≠ s.params.btnActive) :
    awaitRelease q (afterEdges k (withControl s p d o r)) =
      afterEdges k (withControl s q (dlyLoad s.params q) o r) := by
  rw [awaitRelease_of_not_pressed q (by rw [inputNow_withControl]; exact h)]
  rfl

/-- SLEEP with the wake. -/
theorem exec_sleep_withControl (h : (inputAt s k).wake = true) :
    exec .sleep (afterEdges k (withControl s p d o r)) =
      .next (afterEdges k (withControl s .outon 0 o r)) := by
  rw [exec_sleep_of_wake (by rw [inputNow_withControl]; exact h)]
  rfl

end Samples

/-- The suspend sequence up to P_REL1: the poll, the two switches, and the first debounce. -/
theorem runsTo_rel1 {s : State} {n : Nat} (hl : Legal s.params) (hw : controlWord s = 0x08#7)
    (hr : NoReset s n) (hn : 4 + s.params.nDebounce ≤ n)
    (hpress : (inputAt s 0).btn = s.params.btnActive) :
    RunsTo s (4 + s.params.nDebounce) .rel1 0 false false := by
  obtain ⟨hp, hss⟩ := (controlWord_eq_packWord_iff (p := 0x1#4) (ss := 0#3)).mp hw
  have hpoll : RunsTo s 1 .outoff 0 s.outEn s.drvOn :=
    (runsTo_start (p := .poll) hp hss).edge hl hr (by omega) rfl (exec_poll_of_pressed hpress)
  have houtoff : RunsTo s 2 .drvoff 0 false s.drvOn := hpoll.edge hl hr (by omega) rfl (exec_outoff _)
  have hdrvoff : RunsTo s 3 .db1 s.params.nDebounce false false :=
    houtoff.edge hl hr (by omega) rfl (exec_drvoff _)
  exact hdrvoff.count hl hr (by decide) (by omega) hn

/-- Settles O28: the suspend sequence, the release, and the second debounce. -/
theorem pressAndReleaseLeadToSleep : Obligations.PressAndReleaseLeadToSleep := by
  intro s k hl hw hr hpress hheld hreleased
  have hrel1 := runsTo_rel1 hl hw hr (by omega) hpress
  have hwait : RunsTo s (4 + s.params.nDebounce + k) .rel1 0 false false :=
    hrel1.held hl hr (.inl rfl) (by omega) hheld
  have hdb2 : RunsTo s (4 + s.params.nDebounce + k + 1) .db2 s.params.nDebounce false false :=
    hwait.edge hl hr (by omega) (i := .rel1) rfl
      (congrArg Host.Outcome.next (awaitRelease_withControl .db2 hreleased))
  have hsleep := hdb2.count hl hr (q := .sleep) (by decide)
    (m := 1 + 1 + 1 + (s.params.nDebounce + 1) + k + 1 + (s.params.nDebounce + 1)) (by omega) le_rfl
  exact ⟨_, hsleep, controlWord_withControl.trans (by decide), rfl, rfl, rfl, rfl, rfl, rfl⟩

/-- The resume sequence up to P_REL2: the wake, the two switches, and the debounce. -/
theorem runsTo_rel2 {s : State} {n : Nat} (hl : Legal s.params) (hw : controlWord s = 0x40#7)
    (hr : NoReset s n) (hn : 4 + s.params.nDebounce ≤ n) (hwake : (inputAt s 0).wake = true) :
    RunsTo s (4 + s.params.nDebounce) .rel2 0 true true := by
  obtain ⟨hp, hss⟩ := (controlWord_eq_packWord_iff (p := 0x8#4) (ss := 0#3)).mp hw
  have hsleep : RunsTo s 1 .outon 0 s.outEn s.drvOn :=
    (runsTo_start (p := .sleep) hp hss).edge hl hr (by omega) rfl (exec_sleep_withControl hwake)
  have houton : RunsTo s 2 .drvon 0 true s.drvOn := hsleep.edge hl hr (by omega) rfl (exec_outon _)
  have hdrvon : RunsTo s 3 .db3 s.params.nDebounce true true :=
    houton.edge hl hr (by omega) rfl (exec_drvon _)
  exact hdrvon.count hl hr (by decide) (by omega) hn

/-- Settles O29: the resume sequence, the release, and the tick delay. -/
theorem wakeLeadsBackToTheTick : Obligations.WakeLeadsBackToTheTick := by
  intro s k hl hw hr hwake hheld hreleased
  have hrel2 := runsTo_rel2 hl hw hr (by omega) hwake
  have hwait : RunsTo s (4 + s.params.nDebounce + k) .rel2 0 true true :=
    hrel2.held hl hr (.inr rfl) (by omega) hheld
  have hdelay : RunsTo s (4 + s.params.nDebounce + k + 1) .delay s.params.nTick true true :=
    hwait.edge hl hr (by omega) (i := .rel2) rfl
      (congrArg Host.Outcome.next (awaitRelease_withControl .delay hreleased))
  have htick := hdelay.count hl hr (q := .step) (by decide) rfl (by omega)
  have hlength : 1 + 1 + 1 + (s.params.nDebounce + 1) + k + 1 = 4 + s.params.nDebounce + k + 1 := by
    omega
  rw [hlength]
  exact ⟨⟨_, hdelay, controlWord_withControl.trans (by decide), rfl⟩, _, htick,
    controlWord_withControl.trans (by decide), rfl, rfl, rfl, rfl, rfl, rfl⟩

end Sys2Proof.Machine
end
